-- ==== Sys2Proof/Word.lean ====
section
/-! DEFINITION. The word types of KUW: bus words, bytes, semiblocks and engine blocks (00_scope.md R7). -/

namespace Sys2Proof

/-- One byte of the wrapped key or of the unwrapped key. -/
abbrev Byte := BitVec 8

/-- A 32-bit register or bus word (R7, "register width"). -/
abbrev Word := BitVec 32

/-- A 64-bit semiblock, the width of A and of each R[i] (R7). -/
abbrev Semiblock := BitVec 64

/-- A 128-bit engine block (R7, "block width"). -/
abbrev Block := BitVec 128

/-- A byte offset into the 4 KiB register window (30_encoding.md R81). -/
abbrev Offset := BitVec 12

end Sys2Proof
end

