-- ==== Sys2Proof/Config.lean ====
section
/-! DEFINITION. What the implementation fixes (00_scope.md R7) and the open parameters of
92_eei_decisions.md section 6 that a statement about one KUW instance can name. -/

namespace Sys2Proof

/-- Smallest accepted semiblock count (R7 N_MIN; 90_conflicts.md C1). -/
def Config.nMin : Nat := 1

/-- Largest accepted semiblock count (R7 N_MAX; R6 leaves every other build out of scope). -/
def Config.nMax : Nat := 4

/-- Outer rounds, j = 5 down to 0 (R7 ROUNDS). -/
def Config.rounds : Nat := 6

/-- The integrity constant, eight bytes of 0xA6 (R7 IV). -/
def Config.iv : Semiblock := 0xA6A6A6A6A6A6A6A6

/-- The one access width KUW gives a meaning (20_memory.md R61, 30_encoding.md R81). -/
def Config.accessBits : Nat := 32

/-- The only output length of a good engine response (41_unwrap_sequencer.md R154). -/
def Config.blockBytes : BitVec 5 := 16

/-- BASE, the bus address of register offset 0x000 (R7, OPEN; D3). It has no body: no proof can rest
on a value of it. The spec gives a bus address no width: it is a natural number here, as R10 takes a `+` without a
stated width, so that `BASE + off` is exact and never wraps (DESIGN CHOICE, log 12, safe). -/
opaque Config.base : Nat

/-- ENGINE_DEC(handle, algorithm, block), the engine's decryption function (42_engine_interface.md
R188, OPEN; D30): an uninterpreted total function of its three arguments (log 19, safe). No step of KUW
evaluates it; only claims under the premise ENGINE_OK name it. -/
opaque Config.engineDec : Word → Word → Block → Block

end Sys2Proof
end

