-- ==== Sys2Proof/Syntax.lean ====
section
/-! DEFINITION. The instructions of KUW as data: the host's bus accesses and the CTRL commands
(00_scope.md R3), one constructor per mnemonic of spec/opcode_table.json, and the host-side formats
that carry them (30_encoding.md R80, R81, R83). -/

namespace Sys2Proof

/-- The host's instructions. `wdata` is the data word of a write, `w` a word index into the WIN or
KEYOUT window, `off` a reserved byte offset, `cmd` a reserved command code. -/
inductive Instr where
  -- CTRL_CMD format (30_encoding.md R83, R84)
  | nop
  | start
  | clear
  | reservedCmd (cmd : BitVec 4)
  -- BUS writes (30_encoding.md R81, R82)
  | wrCtrl (wdata : Word)
  | wrRoStatus (wdata : Word)
  | wrRoDetail (wdata : Word)
  | wrRoProgress (wdata : Word)
  | wrInten (wdata : Word)
  | wrEventDone (wdata : Word)
  | wrKekHandle (wdata : Word)
  | wrAlgId (wdata : Word)
  | wrKeybits (wdata : Word)
  | wrWlen (wdata : Word)
  | wrWin (w : Fin 10) (wdata : Word)
  | wrRoKeyout (w : Fin 8) (wdata : Word)
  | wrReserved (off : Offset) (wdata : Word)
  -- BUS reads
  | rdCtrl
  | rdStatus
  | rdDetail
  | rdProgress
  | rdInten
  | rdEventDone
  | rdKekHandle
  | rdAlgId
  | rdKeybits
  | rdWlen
  | rdWin (w : Fin 10)
  | rdKeyout (w : Fin 8)
  | rdReserved (off : Offset)
  deriving DecidableEq, Repr

/-- What the host puts on the bus. `read` and `write` are the BUS format of R81 (`size` is the access
size in bits; write data is absent on a read); `command` is the CTRL_CMD format of R80 and R83, the
data word of a 32-bit write to CTRL, which opcode_table.json decodes by rows of its own (log 5). -/
inductive Transaction where
  | read (off : Offset) (size : Nat)
  | write (off : Offset) (size : Nat) (wdata : Word)
  | command (wdata : Word)
  deriving DecidableEq, Repr

end Sys2Proof
end

