-- ==== Sys2Proof/WellFormed.lean ====
section
/-! DEFINITION. Which instruction terms stand for an encoding: the operands that the type of an
instruction leaves wider than its rows of spec/opcode_table.json. -/

namespace Sys2Proof

/-- The reserved offsets of the register window as 20_memory.md R71 lists them, word-aligned (R61). -/
def reservedOffset (off : Offset) : Bool :=
  off.toNat % 4 == 0 &&
  ((0x018 ≤ off.toNat && off.toNat ≤ 0x01C) || (0x030 ≤ off.toNat && off.toNat ≤ 0x03C) ||
   (0x068 ≤ off.toNat && off.toNat ≤ 0x07C) || (0x0A0 ≤ off.toNat && off.toNat ≤ 0xFFC))

/-- The reserved command codes 0x3 to 0xF (30_encoding.md R84). -/
def reservedCode (cmd : BitVec 4) : Bool := 3 ≤ cmd.toNat

/-- The checks on an instruction's operands; an instruction not named has none, its types bound it. -/
def Instr.wf : Instr → Bool
  | .reservedCmd cmd => reservedCode cmd
  | .wrReserved off _ => reservedOffset off
  | .rdReserved off => reservedOffset off
  | .nop | .start | .clear => true
  | .wrCtrl _ | .wrRoStatus _ | .wrRoDetail _ | .wrRoProgress _ | .wrInten _ | .wrEventDone _ => true
  | .wrKekHandle _ | .wrAlgId _ | .wrKeybits _ | .wrWlen _ | .wrWin _ _ | .wrRoKeyout _ _ => true
  | .rdCtrl | .rdStatus | .rdDetail | .rdProgress | .rdInten | .rdEventDone => true
  | .rdKekHandle | .rdAlgId | .rdKeybits | .rdWlen | .rdWin _ | .rdKeyout _ => true

/-- An instruction that some transaction encodes. -/
abbrev Instr.WellFormed (i : Instr) : Prop := i.wf = true

end Sys2Proof
end

