-- ==== Sys2Proof/Decode.lean ====
section
/-! DEFINITION. Decoding of host transactions (30_encoding.md R81 to R85, R93, R94), total and refusing by
name, then the encoder, then both on the words of spec/opcode_table.json. -/

namespace Sys2Proof

/-- Why a transaction is outside the BUS format (20_memory.md R61, 40_host_commands.md R129). -/
inductive DecodeError where
  /-- the access size is not 32 bits -/
  | accessSize (size : Nat)
  /-- `off[1:0]` is not `00` -/
  | misaligned (off : Offset)
  deriving DecidableEq, Repr

/-- The register an aligned offset selects (30_encoding.md R82). -/
inductive Reg where
  | ctrl | status | detail | progress | inten | eventDone
  | kekHandle | algId | keybits | wlen
  | win (w : Fin 10)
  | keyout (w : Fin 8)
  | reserved
  deriving DecidableEq, Repr

/-- R82's table: the exact match on `off[11:2]`. -/
def regOfIndex (k : Nat) : Reg :=
  if h : 0x010 ≤ k ∧ k ≤ 0x019 then .win ⟨k - 0x010, by omega⟩
  else if h : 0x020 ≤ k ∧ k ≤ 0x027 then .keyout ⟨k - 0x020, by omega⟩
  else match k with
    | 0x000 => .ctrl
    | 0x001 => .status
    | 0x002 => .detail
    | 0x003 => .progress
    | 0x004 => .inten
    | 0x005 => .eventDone
    | 0x008 => .kekHandle
    | 0x009 => .algId
    | 0x00A => .keybits
    | 0x00B => .wlen
    | _ => .reserved

/-- The field `off[11:2]` as a number. -/
def Offset.index (off : Offset) : Nat := (off.extractLsb' 2 10).toNat

/-- `off[1:0] = 00` (R61). -/
def Offset.aligned (off : Offset) : Bool := off.extractLsb' 0 2 == 0

/-- The command word (R83, R84): `wdata[3:0]` alone is decoded. -/
def decodeCommand (wdata : Word) : Instr :=
  let cmd : BitVec 4 := wdata.extractLsb' 0 4
  if cmd = 0 then .nop
  else if cmd = 1 then .start
  else if cmd = 2 then .clear
  else .reservedCmd cmd

/-- A 32-bit aligned write, by the register it selects (R82). -/
def decodeWrite (off : Offset) (wdata : Word) : Instr :=
  match regOfIndex (Offset.index off) with
  | .ctrl => .wrCtrl wdata
  | .status => .wrRoStatus wdata
  | .detail => .wrRoDetail wdata
  | .progress => .wrRoProgress wdata
  | .inten => .wrInten wdata
  | .eventDone => .wrEventDone wdata
  | .kekHandle => .wrKekHandle wdata
  | .algId => .wrAlgId wdata
  | .keybits => .wrKeybits wdata
  | .wlen => .wrWlen wdata
  | .win w => .wrWin w wdata
  | .keyout w => .wrRoKeyout w wdata
  | .reserved => .wrReserved off wdata

/-- A 32-bit aligned read, by the register it selects (R82). -/
def decodeRead (off : Offset) : Instr :=
  match regOfIndex (Offset.index off) with
  | .ctrl => .rdCtrl
  | .status => .rdStatus
  | .detail => .rdDetail
  | .progress => .rdProgress
  | .inten => .rdInten
  | .eventDone => .rdEventDone
  | .kekHandle => .rdKekHandle
  | .algId => .rdAlgId
  | .keybits => .rdKeybits
  | .wlen => .rdWlen
  | .win w => .rdWin w
  | .keyout w => .rdKeyout w
  | .reserved => .rdReserved off

/-- The access is inside the BUS format (R81); the size is looked at first (DESIGN CHOICE, log 7). -/
def checkAccess (off : Offset) (size : Nat) : Except DecodeError Unit :=
  if size ≠ Config.accessBits then .error (.accessSize size)
  else if Offset.aligned off then .ok ()
  else .error (.misaligned off)

/-- The decoder of host transactions: total, and refusing only what R129 refuses. -/
def decode : Transaction → Except DecodeError Instr
  | .read off size =>
    match checkAccess off size with
    | .ok () => .ok (decodeRead off)
    | .error e => .error e
  | .write off size wdata =>
    match checkAccess off size with
    | .ok () => .ok (decodeWrite off wdata)
    | .error e => .error e
  | .command wdata => .ok (decodeCommand wdata)

/-- The transaction is inside the format of R81: 32 bits wide at a word-aligned offset. -/
def Transaction.inFormat : Transaction → Bool
  | .read off size => size == 32 && off.toNat % 4 == 0
  | .write off size _ => size == 32 && off.toNat % 4 == 0
  | .command _ => true

/-- The byte offset of word `w` of a window whose first register is at `base` (R82). -/
def wordOffset (base w : Nat) : Offset := BitVec.ofNat 12 (base + 4 * w)

/-- The encoder, from the offsets of 10_state.md R40 and the codes of R84; ignored bits are 0. -/
def encode : Instr → Transaction
  | .nop => .command 0x0
  | .start => .command 0x1
  | .clear => .command 0x2
  | .reservedCmd cmd => .command (cmd.setWidth 32)
  | .wrCtrl d => .write 0x000 32 d
  | .wrRoStatus d => .write 0x004 32 d
  | .wrRoDetail d => .write 0x008 32 d
  | .wrRoProgress d => .write 0x00C 32 d
  | .wrInten d => .write 0x010 32 d
  | .wrEventDone d => .write 0x014 32 d
  | .wrKekHandle d => .write 0x020 32 d
  | .wrAlgId d => .write 0x024 32 d
  | .wrKeybits d => .write 0x028 32 d
  | .wrWlen d => .write 0x02C 32 d
  | .wrWin w d => .write (wordOffset 0x040 w) 32 d
  | .wrRoKeyout w d => .write (wordOffset 0x080 w) 32 d
  | .wrReserved off d => .write off 32 d
  | .rdCtrl => .read 0x000 32
  | .rdStatus => .read 0x004 32
  | .rdDetail => .read 0x008 32
  | .rdProgress => .read 0x00C 32
  | .rdInten => .read 0x010 32
  | .rdEventDone => .read 0x014 32
  | .rdKekHandle => .read 0x020 32
  | .rdAlgId => .read 0x024 32
  | .rdKeybits => .read 0x028 32
  | .rdWlen => .read 0x02C 32
  | .rdWin w => .read (wordOffset 0x040 w) 32
  | .rdKeyout w => .read (wordOffset 0x080 w) 32
  | .rdReserved off => .read off 32

/-- The bus address a transaction is made at: BASE + off (00_scope.md R12). A command is a write to
CTRL at offset 0x000. The spec states no width of a bus address: the sum is on natural numbers (DESIGN CHOICE,
log 12, safe: no step reads it). -/
def Transaction.busAddress : Transaction → Nat
  | .read off _ => Config.base + off.toNat
  | .write off _ _ => Config.base + off.toNat
  | .command _ => Config.base

/-! ### The words of spec/opcode_table.json

A BUS row's word is the 13-bit key `dir << 12 | off` (R82), here in bits 12..0, with the write data in
bits 47..16; a CTRL_CMD row's word is the data word of the write to CTRL. The spec packs the key and
the data into no one word: the packing is the model's (DESIGN CHOICE, log 6). -/

/-- A key and write data as a BUS transaction of 32 bits. -/
def busTransaction (w : Nat) : Transaction :=
  if w.testBit 12 then .write (BitVec.ofNat 12 w) 32 (BitVec.ofNat 32 (w >>> 16))
  else .read (BitVec.ofNat 12 w) 32

/-- The transaction of a table word of `nbits` bits: up to 8 bits or 17 to 32 bits is a command word
(the CTRL_CMD rows), 9 to 16 bits a bare key, more than 32 a key with its write data. -/
def tableTransaction (nbits w : Nat) : Transaction :=
  let v := w % 2 ^ nbits
  if nbits ≤ 8 then .command (BitVec.ofNat 32 v)
  else if nbits ≤ 16 then busTransaction v
  else if nbits ≤ 32 then .command (BitVec.ofNat 32 v)
  else busTransaction v

/-- The instruction the decoder reads from a table word; none where it refuses. -/
def decodeTableWord (nbits w : Nat) : Option Instr :=
  match decode (tableTransaction nbits w) with
  | .ok i => some i
  | .error _ => none

/-- A transaction of 32 bits laid out as a table word: its width and its bits. -/
def Transaction.tableWord : Transaction → Nat × Nat
  | .read off _ => (16, off.toNat)
  | .write off _ wdata => (48, wdata.toNat <<< 16 ||| (1 <<< 12 ||| off.toNat))
  | .command wdata => (32, wdata.toNat)

/-- An instruction's table word. -/
def encodeTableWord (i : Instr) : Nat × Nat := (encode i).tableWord

end Sys2Proof
end

