-- ==== Sys2Proof/Machine/State.lean ====
section
/-! DEFINITION. The state of one KUW instance (10_state.md R20), of the engine beside it (R55, 42_engine_interface.md
R183, R184), what the host has read, and the order of the steps still to be taken. -/

namespace Sys2Proof.Machine

/-- PHASE, the sequencer's state (10_state.md R21): one of five values. Codes 5 to 7 are never held,
so they are no value of the type (DEDUCED, log 9). -/
inductive Phase where
  | idle | validate | issue | wait | final
  deriving DecidableEq, Repr

/-- RESULT, the result code of the last run (60_exceptions.md R200). Codes 5 to 15 are never held, so they
are no value of the type (DEDUCED, log 9). -/
inductive ResultCode where
  | none | ok | invalidInputLength | cipherEngineError | integrityCheckFailed
  deriving DecidableEq, Repr

/-- An ENG_REQ tuple (30_encoding.md R90). -/
structure EngRequest where
  data : Block
  key : Word
  alg : Word
  deriving DecidableEq, Repr

/-- An ENG_RSP tuple (30_encoding.md R91). -/
structure EngResponse where
  err : Bool
  len : BitVec 5
  data : Block
  deriving DecidableEq, Repr

/-- The engine's own state: the request it has accepted and the response it presents
(42_engine_interface.md R183, R184). -/
structure Engine where
  pending : Option EngRequest
  response : Option EngResponse
  deriving DecidableEq, Repr

/-- One step of one agent (00_scope.md R9, 30_encoding.md R96), with what it takes from outside. -/
inductive Event where
  /-- the host's next bus transaction (40_host_commands.md R100) -/
  | host (t : Transaction)
  /-- the sequencer's step of the present PHASE: VALIDATE, ISSUE, RESPOND or FINAL -/
  | sequencer
  /-- the engine takes REQ (42_engine_interface.md R183) -/
  | engineAccept
  /-- the engine answers; the triple is a draw, any value at all (42_engine_interface.md R184; log 3) -/
  | engineAnswer (rsp : EngResponse)
  /-- the reset input `rst` (70_reset_and_hazards.md R230) -/
  | reset
  deriving DecidableEq, Repr

/-- The state. The first nineteen fields are the elements of R20, in its order. -/
@[ext]
structure State where
  /-- PHASE (R21) -/
  phase : Phase
  /-- A, the integrity register (R22) -/
  a : Semiblock
  /-- R[1..4]; R[k] is entry k - 1 (R23) -/
  r : Vector Semiblock 4
  /-- N, the latched semiblock count (R24) -/
  n : BitVec 3
  /-- J, the outer round index (R25) -/
  j : BitVec 3
  /-- I, the inner index (R26) -/
  i : BitVec 3
  /-- T, the round counter last issued (R27) -/
  t : BitVec 8
  /-- CALLS, the engine requests issued in this run (R28) -/
  calls : BitVec 8
  /-- RESULT (R30) -/
  result : ResultCode
  /-- DETAIL (R31), in the fields of R43 -/
  detail : Word
  /-- IGNORED (R32) -/
  ignored : Bool
  /-- EVENT_DONE (R33) -/
  eventDone : Bool
  /-- INTEN (R34) -/
  inten : Bool
  /-- KEK_HANDLE (R35) -/
  kekHandle : Word
  /-- ALG_ID (R36) -/
  algId : Word
  /-- KEYBITS (R37) -/
  keybits : Word
  /-- WLEN (R38) -/
  wlen : Word
  /-- WIN[0..39] (R39) -/
  win : Vector Byte 40
  /-- REQ, empty or one outstanding request (R51) -/
  req : Option EngRequest
  /-- the engine's pending request and response (R55, R184) -/
  engine : Engine
  /-- the values the host's reads have returned, newest first: the model's own field (DESIGN CHOICE, log 4) -/
  reads : List Word
  /-- the steps still to be taken, in the one total order of 20_memory.md R72: the model's own field
  (DESIGN CHOICE, log 1) -/
  agenda : List Event
  deriving DecidableEq, Repr

/-- The state after reset (10_state.md R54, 42_engine_interface.md R233): every element zero or empty. The two
fields of the model's own start empty (log 1, log 4). -/
def State.reset : State where
  phase := .idle
  a := 0
  r := Vector.replicate 4 0
  n := 0
  j := 0
  i := 0
  t := 0
  calls := 0
  result := .none
  detail := 0
  ignored := false
  eventDone := false
  inten := false
  kekHandle := 0
  algId := 0
  keybits := 0
  wlen := 0
  win := Vector.replicate 40 0
  req := none
  engine := ⟨none, none⟩
  reads := []
  agenda := []

/-- Why the model stops. KUW itself raises nothing (60_exceptions.md R209). -/
inductive Fault where
  /-- Raised by ISSUE, and by RESPOND on a good response, when I is not 1 to 4: R[I] does not exist
  (10_state.md R23). R56 rules such states out, and no run from reset reaches one. Safe: the model stops where
  the spec names no register (DEDUCED, log 8). -/
  | noSemiblock (i : BitVec 3)
  deriving DecidableEq, Repr

/-- Why a host step is not taken. -/
inductive Refusal where
  /-- Raised by exec alone, for an instruction that has no meaning yet. Safe. -/
  | notModelled (mnemonic : String)
  /-- Raised by the fetch of a transaction whose size is not 32 bits (20_memory.md R61, 40_host_commands.md R129). Safe. -/
  | accessSize (size : Nat)
  /-- Raised by the fetch of a transaction with `off[1:0] != 00` (R61, R129). Safe. -/
  | misaligned (off : Offset)
  deriving DecidableEq, Repr

/-- What a step answers. -/
abbrev StepResult := Host.Outcome State Fault Refusal

end Sys2Proof.Machine
end

