-- ==== Sys2Proof/Machine/Operands.lean ====
section
/-! DEFINITION. Operand forms: byte order and lanes (00_scope.md R11; 20_memory.md R62, R63, R65, R66), the fields of
KEYBITS and the expected length (30_encoding.md R86). -/

namespace Sys2Proof.Machine

/-- `be64(b[0..7])`: byte 0 is the most significant (R11). -/
def be64 (b0 b1 b2 b3 b4 b5 b6 b7 : Byte) : Semiblock :=
  b0 ++ b1 ++ b2 ++ b3 ++ b4 ++ b5 ++ b6 ++ b7

/-- `byte_k(v) = v[63-8k : 56-8k]` (R11). -/
def byteOf (k : Nat) (v : Semiblock) : Byte := v.extractLsb' (56 - 8 * k) 8

/-- Data bits `[8m+7 : 8m]` of a bus word (R62, R63). -/
def lane (m : Nat) (d : Word) : Byte := d.extractLsb' (8 * m) 8

/-- The bus word whose lane m is `bm` (R63). -/
def laneWord (b0 b1 b2 b3 : Byte) : Word := b3 ++ b2 ++ b1 ++ b0

/-- WIN[k], for k < 40. -/
def winByte (win : Vector Byte 40) (k : Nat) : Byte := win[k]?.getD 0

/-- `be64(WIN[8k .. 8k+7])` (R65): the integrity block for k = 0, semiblock k for k = 1..4. -/
def winSemiblock (win : Vector Byte 40) (k : Nat) : Semiblock :=
  be64 (winByte win (8 * k)) (winByte win (8 * k + 1)) (winByte win (8 * k + 2)) (winByte win (8 * k + 3))
    (winByte win (8 * k + 4)) (winByte win (8 * k + 5)) (winByte win (8 * k + 6)) (winByte win (8 * k + 7))

/-- The store of a bus word into WIN word w: `WIN[4w+m] <- wdata[8m+7 : 8m]`, m = 0..3 (R62, 30_encoding.md R89). -/
def storeWinWord (win : Vector Byte 40) (w : Fin 10) (d : Word) : Vector Byte 40 :=
  (((win.set (4 * w.val) (lane 0 d) (by omega)).set (4 * w.val + 1) (lane 1 d) (by omega)).set
    (4 * w.val + 2) (lane 2 d) (by omega)).set (4 * w.val + 3) (lane 3 d) (by omega)

/-- `nn = KEYBITS[31:6]`, floor(KEYBITS / 64) as 26 bits (R86). -/
def semiblockCount (keybits : Word) : BitVec 26 := keybits.extractLsb' 6 26

/-- The length VALIDATE expects, `8*(nn+1)`, computed exactly (R86). -/
def expectedLength (keybits : Word) : Nat := 8 * ((semiblockCount keybits).toNat + 1)

/-- `A || R[I]` on the engine channel: A on bits [127:64] (20_memory.md R66). -/
def joinBlock (a r : Semiblock) : Block := a ++ r

/-- Bytes 0..7 of a block, bits [127:64] (R66). -/
def blockHigh (b : Block) : Semiblock := b.extractLsb' 64 64

/-- Bytes 8..15 of a block, bits [63:0] (R66). -/
def blockLow (b : Block) : Semiblock := b.extractLsb' 0 64

/-- The round counter `t = (N*J + I)[7:0]` (41_unwrap_sequencer.md R150). -/
def roundCounter (n j i : BitVec 3) : BitVec 8 := BitVec.ofNat 8 (n.toNat * j.toNat + i.toNat)

/-- `A[63:8] || (A[7:0] ^ t)` (R151). -/
def xorLowByte (a : Semiblock) (t : BitVec 8) : Semiblock :=
  a.extractLsb' 8 56 ++ (a.extractLsb' 0 8 ^^^ t)

end Sys2Proof.Machine
end

