-- ==== Sys2Proof/Machine/Flags.lean ====
section
/-! DEFINITION. The words and wires derived from the state: VALIDATE's checks, STATUS, DETAIL, PROGRESS and KEYOUT as
read, `irq`, and KUW's engine ports. -/

namespace Sys2Proof.Machine

/-- The code of a PHASE (10_state.md R21). -/
def Phase.code : Phase → BitVec 3
  | .idle => 0
  | .validate => 1
  | .issue => 2
  | .wait => 3
  | .final => 4

/-- The code of a RESULT (60_exceptions.md R200). -/
def ResultCode.code : ResultCode → BitVec 4
  | .none => 0
  | .ok => 1
  | .invalidInputLength => 2
  | .cipherEngineError => 3
  | .integrityCheckFailed => 4

/-- BUSY, `PHASE != IDLE` (R21). -/
def State.busy (s : State) : Bool := s.phase != .idle

/-- `irq = INTEN & EVENT_DONE`, a level (10_state.md R53, 60_exceptions.md R210). -/
def State.irq (s : State) : Bool := s.inten && s.eventDone

/-- Check e0: KEYBITS is no multiple of 64 (41_unwrap_sequencer.md R143). -/
def keybitsUnaligned (keybits : Word) : Bool := keybits.extractLsb' 0 6 != 0

/-- Check e1: the semiblock count is outside 1..4 (R144). -/
def countOutOfRange (keybits : Word) : Bool :=
  (semiblockCount keybits).toNat < Config.nMin || Config.nMax < (semiblockCount keybits).toNat

/-- Check e2: WLEN is not `8*(nn+1)` (R145). -/
def lengthMismatch (keybits wlen : Word) : Bool := wlen.toNat != expectedLength keybits

/-- The operands VALIDATE accepts: none of e0, e1, e2 (R142). -/
def inputsValid (keybits wlen : Word) : Bool :=
  !(keybitsUnaligned keybits || countOutOfRange keybits || lengthMismatch keybits wlen)

/-- DETAIL after a failed VALIDATE, `zext_32(e2 || e1 || e0)` (R142). -/
def validateDetail (keybits wlen : Word) : Word :=
  (BitVec.ofBool (lengthMismatch keybits wlen) ++ BitVec.ofBool (countOutOfRange keybits) ++
    BitVec.ofBool (keybitsUnaligned keybits)).setWidth 32

/-- A response is good exactly when `err = 0` and `len = 16` (R154). -/
def EngResponse.good (rsp : EngResponse) : Bool := !rsp.err && rsp.len == Config.blockBytes

/-- DETAIL after a failed RESPOND: ENG_LEN [20:16], ENG_BADLEN [9], ENG_ERR [8] (R153). -/
def respondDetail (rsp : EngResponse) : Word :=
  (rsp.len ++ (0 : BitVec 6) ++ BitVec.ofBool (rsp.len != Config.blockBytes) ++ BitVec.ofBool rsp.err ++
    (0 : BitVec 8)).setWidth 32

/-- STATUS: PHASE [10:8], RESULT [7:4], IGNORED [1], BUSY [0] (10_state.md R42, 40_host_commands.md R117). -/
def State.statusWord (s : State) : Word :=
  (s.phase.code ++ s.result.code ++ (0 : BitVec 2) ++ BitVec.ofBool s.ignored ++ BitVec.ofBool s.busy).setWidth 32

/-- The live bits of DETAIL: [0], [1], [2], [8], [9], [20:16] (10_state.md R43; DEDUCED, log 14). -/
def detailMask : Word := 0x001F0307

/-- DETAIL as read: its fields, and 0 in reserved bits (40_host_commands.md R118). -/
def State.detailWord (s : State) : Word := s.detail &&& detailMask

/-- PROGRESS: T [31:24], CALLS [23:16], N [10:8], I [6:4], J [2:0] (10_state.md R44, 40_host_commands.md R119). -/
def State.progressWord (s : State) : Word :=
  s.t ++ s.calls ++ (0 : BitVec 5) ++ s.n ++ (0 : BitVec 1) ++ s.i ++ (0 : BitVec 1) ++ s.j

/-- Byte b of the unwrapped key, `K[8(k-1)+m] = byte_m(R[k])` (10_state.md R49). -/
def State.keyByte (s : State) (b : Nat) : Byte := byteOf (b % 8) (s.r[b / 8]?.getD 0)

/-- One lane of a KEYOUT read: the key byte when RESULT = OK and b < 8N, else 0 (R49). -/
def State.keyoutByte (s : State) (b : Nat) : Byte :=
  if s.result = .ok ∧ b < 8 * s.n.toNat then s.keyByte b else 0

/-- KEYOUTw as read (R49, 40_host_commands.md R127). -/
def State.keyoutWord (s : State) (w : Fin 8) : Word :=
  laneWord (s.keyoutByte (4 * w.val)) (s.keyoutByte (4 * w.val + 1)) (s.keyoutByte (4 * w.val + 2))
    (s.keyoutByte (4 * w.val + 3))

/-- Port `eng_req_valid`: REQ is full (42_engine_interface.md R181). -/
def State.engReqValid (s : State) : Bool := s.req.isSome

/-- The request ports carry REQ's fields while REQ is full, and 0 otherwise (R181). -/
def State.engReqPorts (s : State) : EngRequest := s.req.getD ⟨0, 0, 0⟩

/-- Port `eng_rsp_ready`: 1 exactly when PHASE = WAIT (R185). -/
def State.engRspReady (s : State) : Bool := s.phase == .wait

/-- Port `eng_rsp_valid`: the engine presents a response (R184). -/
def State.engRspValid (s : State) : Bool := s.engine.response.isSome

end Sys2Proof.Machine
end

