-- ==== Sys2Proof/Machine/Ops.lean ====
section
/-! DEFINITION. The named operations on the state: the semiblock array, gating, the commands, `terminate`, reset, and the answer
of a read. KUW takes no exception and has no return from one (60_exceptions.md R209, R212): `terminate` is the one way
an error is reported. -/

namespace Sys2Proof.Machine

/-- R[k], which exists for k = 1..4 only (10_state.md R23). -/
def State.semiblock (s : State) (k : Nat) : Option Semiblock :=
  match k with
  | 0 => none
  | k + 1 => s.r[k]?

/-- `R[k] <- v`. -/
def State.setSemiblock (s : State) (k : Nat) (v : Semiblock) : State :=
  match k with
  | 0 => s
  | k + 1 => { s with r := s.r.setIfInBounds k v }

/-- A read returns v to the host and changes no element of KUW (20_memory.md R69; log 4). -/
def State.answerRead (s : State) (v : Word) : State := { s with reads := v :: s.reads }

/-- `IGNORED <- 1` (10_state.md R32). -/
def State.markIgnored (s : State) : State := { s with ignored := true }

/-- A gated write: while PHASE != IDLE it changes nothing except `IGNORED <- 1` (40_host_commands.md R101). -/
def State.gated (s : State) (write : State → State) : State :=
  if s.busy then s.markIgnored else write s

/-- What START and CLEAR both write (R104, R105): the result, the position, A and R. -/
def State.wipe (s : State) : State :=
  { s with
    result := .none, detail := 0, ignored := false, eventDone := false
    n := 0, j := 0, i := 0, t := 0, calls := 0
    a := 0, r := Vector.replicate 4 0 }

/-- START (40_host_commands.md R104). -/
def State.commandStart (s : State) : State := s.gated fun s => { s.wipe with phase := .validate }

/-- CLEAR (40_host_commands.md R105). -/
def State.commandClear (s : State) : State := s.gated fun s => { s.wipe with win := Vector.replicate 40 0 }

/-- The command of `wdata[3:0]` (40_host_commands.md R102). -/
def State.command (s : State) (cmd : BitVec 4) : State :=
  if cmd = 0 then s
  else if cmd = 1 then s.commandStart
  else if cmd = 2 then s.commandClear
  else s.markIgnored

/-- `terminate(code)` (41_unwrap_sequencer.md R165): the result and the completion event are set, PHASE returns to
IDLE, and any code but OK zeroes A and R (R166). -/
def State.terminate (s : State) (code : ResultCode) : State :=
  if code = .ok then { s with result := code, phase := .idle, eventDone := true }
  else { s with result := code, a := 0, r := Vector.replicate 4 0, phase := .idle, eventDone := true }

/-- Reset as a step (70_reset_and_hazards.md R230, R233): every element of KUW and the engine's request and response take
their reset value. The host is another agent: what it has read and the steps to come stay (DESIGN CHOICE, log 10). -/
def State.takeReset (s : State) : State :=
  { State.reset with reads := s.reads, agenda := s.agenda }

end Sys2Proof.Machine
end

