-- ==== Sys2Proof/Machine/Sequencer.lean ====
section
/-! DEFINITION. The unwrap sequencer's steps (41_unwrap_sequencer.md R142 to R158): one step per PHASE. -/

namespace Sys2Proof.Machine

/-- The semiblocks a valid VALIDATE loads: `R[k] <- be64(WIN[8k .. 8k+7])` for k = 1..n, the others kept (R146). -/
def loadSemiblocks (win : Vector Byte 40) (n : Nat) (r : Vector Semiblock 4) : Vector Semiblock 4 :=
  #v[if 1 ≤ n then winSemiblock win 1 else r[0], if 2 ≤ n then winSemiblock win 2 else r[1],
     if 3 ≤ n then winSemiblock win 3 else r[2], if 4 ≤ n then winSemiblock win 4 else r[3]]

/-- VALIDATE (R142): all three checks are evaluated and recorded (D37), or the input is split and the indices start
at (5, N) (R146, R147). -/
def seqValidate (s : State) : State :=
  if inputsValid s.keybits s.wlen then
    let nn : BitVec 3 := (semiblockCount s.keybits).setWidth 3
    { s with
      n := nn
      a := winSemiblock s.win 0
      r := loadSemiblocks s.win nn.toNat s.r
      j := 5
      i := nn
      phase := .issue }
  else
    { s with detail := validateDetail s.keybits s.wlen }.terminate .invalidInputLength

/-- ISSUE (R148): t, the XOR into A, the request, and WAIT. R[I] must exist (log 8). -/
def seqIssue (s : State) : StepResult :=
  match s.semiblock s.i.toNat with
  | none => .fault (.noSemiblock s.i)
  | some ri =>
    let t := roundCounter s.n s.j s.i
    let a := xorLowByte s.a t
    .next { s with
      t := t
      a := a
      req := some { data := joinBlock a ri, key := s.kekHandle, alg := s.algId }
      calls := s.calls + 1
      phase := .wait }

/-- `advance()` (R156). -/
def State.advance (s : State) : State :=
  if 1 < s.i.toNat then { s with i := s.i - 1, phase := .issue }
  else if 0 < s.j.toNat then { s with j := s.j - 1, i := s.n, phase := .issue }
  else { s with phase := .final }

/-- RESPOND (R153) with the presented response, which is consumed: a response that is not good ends the run; a good
one is committed (R155) and the indices advance. -/
def seqRespond (rsp : EngResponse) (s : State) : StepResult :=
  let s := { s with engine := { s.engine with response := none } }
  if rsp.good then
    match s.semiblock s.i.toNat with
    | none => .fault (.noSemiblock s.i)
    | some _ =>
      .next (({ s with a := blockHigh rsp.data }.setSemiblock s.i.toNat (blockLow rsp.data)).advance)
  else
    .next ({ s with detail := respondDetail rsp }.terminate .cipherEngineError)

/-- FINAL (R157, R158): all 64 bits of A against IV. -/
def seqFinal (s : State) : State :=
  if s.a = Config.iv then s.terminate .ok else s.terminate .integrityCheckFailed

/-- The sequencer's step of the present PHASE (30_encoding.md R96). IDLE has none, and WAIT has one only while the engine
presents a response (R153, 90_conflicts.md C9); an event whose step is not enabled changes nothing (log 2). -/
def seqStep (s : State) : StepResult :=
  match s.phase with
  | .idle => .next s
  | .validate => .next (seqValidate s)
  | .issue => seqIssue s
  | .wait =>
    match s.engine.response with
    | none => .next s
    | some rsp => seqRespond rsp s
  | .final => .next (seqFinal s)

end Sys2Proof.Machine
end

