-- ==== Sys2Proof/Machine/Agents.lean ====
section
/-! DEFINITION. The engine's two steps (42_engine_interface.md R183, R184) and the fetch of the host's transaction. -/

namespace Sys2Proof.Machine

/-- A sequencer step is enabled (30_encoding.md R96): always in VALIDATE, ISSUE and FINAL, in WAIT while a response is
presented and taken, never in IDLE. -/
def State.seqEnabled (s : State) : Bool :=
  match s.phase with
  | .idle => false
  | .wait => s.engRspReady && s.engRspValid
  | .validate | .issue | .final => true

/-- ACCEPT is enabled: REQ is full and the engine holds no request and no response (R183, 90_conflicts.md C10). -/
def State.acceptEnabled (s : State) : Bool :=
  s.engReqValid && s.engine.pending.isNone && s.engine.response.isNone

/-- ANSWER is enabled: the engine holds a request and no response (R184). -/
def State.answerEnabled (s : State) : Bool := s.engine.pending.isSome && s.engine.response.isNone

/-- ACCEPT (R183): `engine.pending <- REQ; REQ <- empty`; not enabled, it changes nothing (log 2). -/
def engineAccept (s : State) : State :=
  if s.acceptEnabled then { s with engine := { s.engine with pending := s.req }, req := none } else s

/-- ANSWER (R184): `engine.response <- (err, len, data); engine.pending <- empty`, with any triple (log 3); not enabled,
it changes nothing (log 2). -/
def engineAnswer (rsp : EngResponse) (s : State) : State :=
  if s.answerEnabled then { s with engine := { pending := none, response := some rsp } } else s

/-- The host's transaction as an instruction, or the refusal of 40_host_commands.md R129. -/
def fetch (t : Transaction) : Except Refusal Instr :=
  match decode t with
  | .ok i => .ok i
  | .error (.accessSize size) => .error (.accessSize size)
  | .error (.misaligned off) => .error (.misaligned off)

end Sys2Proof.Machine
end

