-- ==== Sys2Proof/Machine/Commands.lean ====
section
/-! DEFINITION. The CTRL commands and the write to CTRL (40_host_commands.md R102 to R106). -/

namespace Sys2Proof.Machine

/-- NOP (R103): nothing. -/
def execNop (s : State) : StepResult := .next s

/-- START (R104). -/
def execStart (s : State) : StepResult := .next s.commandStart

/-- CLEAR (R105). -/
def execClear (s : State) : StepResult := .next s.commandClear

/-- A reserved command (R106): `IGNORED <- 1`, in IDLE and while BUSY. -/
def execReservedCmd (_cmd : BitVec 4) (s : State) : StepResult := .next s.markIgnored

/-- WR CTRL (R102): the command of `wdata[3:0]`; `wdata[31:4]` is ignored. -/
def execWrCtrl (wdata : Word) (s : State) : StepResult := .next (s.command (wdata.extractLsb' 0 4))

end Sys2Proof.Machine
end

