-- ==== Sys2Proof/Machine/Reads.lean ====
section
/-! DEFINITION. The host's reads (40_host_commands.md R116 to R128): each returns a value and changes no element of KUW
(20_memory.md R68, R69). -/

namespace Sys2Proof.Machine

/-- RD CTRL (R116): 0. -/
def execRdCtrl (s : State) : StepResult := .next (s.answerRead 0)

/-- RD STATUS (R117). -/
def execRdStatus (s : State) : StepResult := .next (s.answerRead s.statusWord)

/-- RD DETAIL (R118). -/
def execRdDetail (s : State) : StepResult := .next (s.answerRead s.detailWord)

/-- RD PROGRESS (R119). -/
def execRdProgress (s : State) : StepResult := .next (s.answerRead s.progressWord)

/-- RD INTEN (R120): `zext_32(INTEN)`. -/
def execRdInten (s : State) : StepResult := .next (s.answerRead ((BitVec.ofBool s.inten).setWidth 32))

/-- RD EVENT_DONE (R121): `zext_32(EVENT_DONE)`. -/
def execRdEventDone (s : State) : StepResult := .next (s.answerRead ((BitVec.ofBool s.eventDone).setWidth 32))

/-- RD KEK_HANDLE (R122). -/
def execRdKekHandle (s : State) : StepResult := .next (s.answerRead s.kekHandle)

/-- RD ALG_ID (R123). -/
def execRdAlgId (s : State) : StepResult := .next (s.answerRead s.algId)

/-- RD KEYBITS (R124). -/
def execRdKeybits (s : State) : StepResult := .next (s.answerRead s.keybits)

/-- RD WLEN (R125). -/
def execRdWlen (s : State) : StepResult := .next (s.answerRead s.wlen)

/-- RD WINw (R126): 0, whatever WIN holds. -/
def execRdWin (_w : Fin 10) (s : State) : StepResult := .next (s.answerRead 0)

/-- RD KEYOUTw (R127). -/
def execRdKeyout (w : Fin 8) (s : State) : StepResult := .next (s.answerRead (s.keyoutWord w))

/-- RD of a reserved offset (R128): 0. -/
def execRdReserved (_off : Offset) (s : State) : StepResult := .next (s.answerRead 0)

end Sys2Proof.Machine
end

