-- ==== Sys2Proof/Machine/Writes.lean ====
section
/-! DEFINITION. The host's writes to registers other than CTRL (40_host_commands.md R107 to R115). -/

namespace Sys2Proof.Machine

/-- WR STATUS (R107): a read-only register; no effect, and IGNORED is not set. -/
def execWrRoStatus (_wdata : Word) (s : State) : StepResult := .next s

/-- WR DETAIL (R107): no effect. -/
def execWrRoDetail (_wdata : Word) (s : State) : StepResult := .next s

/-- WR PROGRESS (R107): no effect. -/
def execWrRoProgress (_wdata : Word) (s : State) : StepResult := .next s

/-- WR KEYOUTw (R107): no effect. -/
def execWrRoKeyout (_w : Fin 8) (_wdata : Word) (s : State) : StepResult := .next s

/-- WR INTEN (R108): `INTEN <- wdata[0]`, never gated. -/
def execWrInten (wdata : Word) (s : State) : StepResult := .next { s with inten := wdata.getLsbD 0 }

/-- WR EVENT_DONE (R109): a 0 in bit 0 clears the event, a 1 has no effect; never gated. -/
def execWrEventDone (wdata : Word) (s : State) : StepResult :=
  .next (if wdata.getLsbD 0 then s else { s with eventDone := false })

/-- WR KEK_HANDLE (R110), gated. -/
def execWrKekHandle (wdata : Word) (s : State) : StepResult :=
  .next (s.gated fun s => { s with kekHandle := wdata })

/-- WR ALG_ID (R111), gated. -/
def execWrAlgId (wdata : Word) (s : State) : StepResult :=
  .next (s.gated fun s => { s with algId := wdata })

/-- WR KEYBITS (R112), gated. -/
def execWrKeybits (wdata : Word) (s : State) : StepResult :=
  .next (s.gated fun s => { s with keybits := wdata })

/-- WR WLEN (R113), gated. -/
def execWrWlen (wdata : Word) (s : State) : StepResult :=
  .next (s.gated fun s => { s with wlen := wdata })

/-- WR WINw (R114), gated. -/
def execWrWin (w : Fin 10) (wdata : Word) (s : State) : StepResult :=
  .next (s.gated fun s => { s with win := storeWinWord s.win w wdata })

/-- WR of a reserved offset (R115): no effect, IGNORED is not set, no bus error. -/
def execWrReserved (_off : Offset) (_wdata : Word) (s : State) : StepResult := .next s

end Sys2Proof.Machine
end

