-- ==== Sys2Proof/Machine/Dispatch.lean ====
section
/-! DEFINITION. The dispatch of the host's instructions: one arm per constructor of Instr. -/

namespace Sys2Proof.Machine

def exec (i : Instr) (s : State) : Host.Outcome State Fault Refusal :=
  match i with
  | .nop => Sys2Proof.Machine.execNop s
  | .start => Sys2Proof.Machine.execStart s
  | .clear => Sys2Proof.Machine.execClear s
  | .reservedCmd cmd => Sys2Proof.Machine.execReservedCmd cmd s
  | .wrCtrl wdata => Sys2Proof.Machine.execWrCtrl wdata s
  | .wrRoStatus wdata => Sys2Proof.Machine.execWrRoStatus wdata s
  | .wrRoDetail wdata => Sys2Proof.Machine.execWrRoDetail wdata s
  | .wrRoProgress wdata => Sys2Proof.Machine.execWrRoProgress wdata s
  | .wrInten wdata => Sys2Proof.Machine.execWrInten wdata s
  | .wrEventDone wdata => Sys2Proof.Machine.execWrEventDone wdata s
  | .wrKekHandle wdata => Sys2Proof.Machine.execWrKekHandle wdata s
  | .wrAlgId wdata => Sys2Proof.Machine.execWrAlgId wdata s
  | .wrKeybits wdata => Sys2Proof.Machine.execWrKeybits wdata s
  | .wrWlen wdata => Sys2Proof.Machine.execWrWlen wdata s
  | .wrWin w wdata => Sys2Proof.Machine.execWrWin w wdata s
  | .wrRoKeyout w wdata => Sys2Proof.Machine.execWrRoKeyout w wdata s
  | .wrReserved off wdata => Sys2Proof.Machine.execWrReserved off wdata s
  | .rdCtrl => Sys2Proof.Machine.execRdCtrl s
  | .rdStatus => Sys2Proof.Machine.execRdStatus s
  | .rdDetail => Sys2Proof.Machine.execRdDetail s
  | .rdProgress => Sys2Proof.Machine.execRdProgress s
  | .rdInten => Sys2Proof.Machine.execRdInten s
  | .rdEventDone => Sys2Proof.Machine.execRdEventDone s
  | .rdKekHandle => Sys2Proof.Machine.execRdKekHandle s
  | .rdAlgId => Sys2Proof.Machine.execRdAlgId s
  | .rdKeybits => Sys2Proof.Machine.execRdKeybits s
  | .rdWlen => Sys2Proof.Machine.execRdWlen s
  | .rdWin w => Sys2Proof.Machine.execRdWin w s
  | .rdKeyout w => Sys2Proof.Machine.execRdKeyout w s
  | .rdReserved off => Sys2Proof.Machine.execRdReserved off s

end Sys2Proof.Machine
end

