-- ==== Sys2Proof/Machine/Step.lean ====
section
/-! DEFINITION. One step of the machine: the next event of the agenda, taken as one atomic step (00_scope.md R9, 20_memory.md
R72), and the placing of a table word as the host's next transaction. -/

namespace Sys2Proof.Machine

/-- One step. The head of the agenda leaves it and its agent's step is taken; with an empty agenda no agent moves
(DESIGN CHOICE, log 2). -/
def step (s : State) : Host.Outcome State Fault Refusal :=
  match s.agenda with
  | [] => .next s
  | .host t :: rest =>
    match fetch t with
    | .ok i => exec i { s with agenda := rest }
    | .error r => .refused r
  | .sequencer :: rest => seqStep { s with agenda := rest }
  | .engineAccept :: rest => .next (engineAccept { s with agenda := rest })
  | .engineAnswer rsp :: rest => .next (engineAnswer rsp { s with agenda := rest })
  | .reset :: rest => .next { s with agenda := rest }.takeReset

/-- The state in which the host's next transaction is the table word `w` (log 6, log 15). -/
def State.withFetchWord (s : State) (nbits w : Nat) : State :=
  { s with agenda := .host (tableTransaction nbits w) :: s.agenda }

end Sys2Proof.Machine
end

