-- ==== Sys2Proof/Safety.lean ====
section
/-! DEFINITION. The terms the statements use: kinds of host instruction, the invariant of 10_state.md R56 and the stronger one
every step keeps, reachable states, the premise ENGINE_OK and the unwrap of the source's section 4.1 as a pure function, the
count of sequencer steps left, the premises SEQ_FAIR and ENGINE_LIVE, and what the host can see. -/

namespace Sys2Proof.Machine

/-! ### Kinds of host instruction -/

/-- The command code an instruction carries to CTRL (40_host_commands.md R102), if it writes CTRL. -/
def commandCode : Instr → Option (BitVec 4)
  | .nop => some 0
  | .start => some 1
  | .clear => some 2
  | .reservedCmd cmd => some cmd
  | .wrCtrl wdata => some (wdata.extractLsb' 0 4)
  | _ => none

/-- START or CLEAR, by either spelling. -/
def isStartOrClear (i : Instr) : Bool := commandCode i == some 1 || commandCode i == some 2

/-- A reserved command code 0x3 to 0xF (40_host_commands.md R106). -/
def isReservedCommand (i : Instr) : Bool :=
  match commandCode i with
  | some cmd => 3 ≤ cmd.toNat
  | none => false

/-- The gated writes (40_host_commands.md R101): the operand registers, WIN, START and CLEAR. -/
def isGated (i : Instr) : Bool :=
  match i with
  | .wrKekHandle _ | .wrAlgId _ | .wrKeybits _ | .wrWlen _ | .wrWin _ _ => true
  | _ => isStartOrClear i

/-- A write of 0 to bit 0 of the EVENT_DONE register (40_host_commands.md R109). -/
def clearsEvent : Instr → Bool
  | .wrEventDone wdata => !wdata.getLsbD 0
  | _ => false

/-- The host's reads (40_host_commands.md R116 to R128). -/
def isRead : Instr → Bool
  | .rdCtrl | .rdStatus | .rdDetail | .rdProgress | .rdInten | .rdEventDone | .rdKekHandle | .rdAlgId
  | .rdKeybits | .rdWlen | .rdWin _ | .rdKeyout _ | .rdReserved _ => true
  | _ => false

/-! ### Invariants -/

/-- The number of pairs (j, i) from the present one to the last: `N*J + I` (41_unwrap_sequencer.md R147, R150). -/
def State.pairsLeft (s : State) : Nat := s.n.toNat * s.j.toNat + s.i.toNat

/-- A run is past VALIDATE (10_state.md R25, R26). -/
abbrev State.pastValidate (s : State) : Prop := s.phase = .issue ∨ s.phase = .wait ∨ s.phase = .final

/-- A result code of a failed run (60_exceptions.md R200). -/
def ResultCode.isError : ResultCode → Bool
  | .invalidInputLength | .cipherEngineError | .integrityCheckFailed => true
  | .none | .ok => false

/-- The invariants of 10_state.md R56, item by item. Its first, PHASE in 0..4, is its own item: the code of PHASE. -/
structure StatedInvariant (s : State) : Prop where
  phaseCode : s.phase.code.toNat ≤ 4
  indices : s.pastValidate → 1 ≤ s.n.toNat ∧ s.n.toNat ≤ 4 ∧ s.j.toNat ≤ 5 ∧ 1 ≤ s.i.toNat ∧ s.i.toNat ≤ s.n.toNat
  finalPosition : s.phase = .final → s.j.toNat = 0 ∧ s.i.toNat = 1 ∧ s.calls.toNat = 6 * s.n.toNat
  requestInWait : s.req.isSome → s.phase = .wait
  okAtRest : s.result = .ok → s.phase = .idle ∧ s.a = Config.iv
  errorWiped : s.result.isError → s.a = 0 ∧ s.r = Vector.replicate 4 0
  runningUnsettled : s.phase ≠ .idle → s.result = .none ∧ s.eventDone = false

/-- The position holds a count in range: N in 1..4, J in 0..5, I in 1..N. -/
abbrev State.inRange (s : State) : Prop :=
  1 ≤ s.n.toNat ∧ s.n.toNat ≤ 4 ∧ s.j.toNat ≤ 5 ∧ 1 ≤ s.i.toNat ∧ s.i.toNat ≤ s.n.toNat

/-- PROGRESS is zero: no pair has been reached (60_exceptions.md R201). -/
abbrev State.positionZero (s : State) : Prop := s.n = 0 ∧ s.j = 0 ∧ s.i = 0 ∧ s.t = 0 ∧ s.calls = 0

/-- The last request of the run was issued at the present pair: T is its counter and CALLS its number (10_state.md R27, R28). -/
abbrev State.lastIssuedHere (s : State) : Prop :=
  s.inRange ∧ s.t.toNat = s.pairsLeft ∧ s.calls.toNat + s.pairsLeft = 6 * s.n.toNat + 1

/-- All 6N requests are made and answered (60_exceptions.md R203). -/
abbrev State.allIssued (s : State) : Prop :=
  s.lastIssuedHere ∧ s.j.toNat = 0 ∧ s.i.toNat = 1

/-- KUW holds a request, or the engine holds one, or it presents a response: how many of the three (R186). -/
def State.outstanding (s : State) : Nat :=
  s.req.isSome.toNat + s.engine.pending.isSome.toNat + s.engine.response.isSome.toNat

/-- The invariant every step keeps: R56 and what makes it inductive. -/
structure Inv (s : State) : Prop where
  /-- past VALIDATE the position is in range -/
  issuePosition : s.phase = .issue → s.inRange ∧ s.calls.toNat + s.pairsLeft = 6 * s.n.toNat
  waitPosition : s.phase = .wait → s.lastIssuedHere
  finalPosition : s.phase = .final → s.allIssued
  /-- a request is outstanding in WAIT, exactly one, and in no other phase (R186) -/
  oneInWait : s.phase = .wait → s.outstanding = 1
  noneElsewhere : s.phase ≠ .wait → s.outstanding = 0
  /-- an outstanding request carries the present block, handle and algorithm (R152, R187) -/
  requestHeld : ∀ q, s.req = some q ∨ s.engine.pending = some q →
    s.semiblock s.i.toNat = some (blockLow q.data) ∧ s.a = blockHigh q.data ∧ q.key = s.kekHandle ∧ q.alg = s.algId
  /-- a run in progress has no result and no event -/
  running : s.phase ≠ .idle → s.result = .none ∧ s.eventDone = false
  /-- before VALIDATE, and where no run has ended, all working state is zero -/
  untouched : s.phase = .validate ∨ (s.phase = .idle ∧ s.result = .none) →
    s.positionZero ∧ s.a = 0 ∧ s.r = Vector.replicate 4 0
  okEnd : s.result = .ok → s.a = Config.iv ∧ s.allIssued
  invalidEnd : s.result = .invalidInputLength → s.positionZero
  engineEnd : s.result = .cipherEngineError → s.lastIssuedHere
  integrityEnd : s.result = .integrityCheckFailed → s.allIssued
  errorWiped : s.result.isError → s.a = 0 ∧ s.r = Vector.replicate 4 0
  /-- R[N+1..4] are zero (10_state.md R23) -/
  tailZero : ∀ k, s.n.toNat ≤ k → k < 4 → s.r[k]? = some 0
  /-- DETAIL is zero but after a length or an engine error (10_state.md R31), and its reserved bits are zero (R43) -/
  detailZero : s.result = .none ∨ s.result = .ok ∨ s.result = .integrityCheckFailed → s.detail = 0
  detailReserved : s.detail &&& detailMask = s.detail

/-- A state some run from reset reaches, whatever the agents do: any agenda at reset, then steps. -/
inductive Reachable : State → Prop where
  | reset (agenda : List Event) : Reachable { State.reset with agenda := agenda }
  | step (s t : State) : Reachable s → step s = .next t → Reachable t

/-! ### The correct engine and the unwrap as a function -/

/-- The response of a correct engine to a request (42_engine_interface.md R188). -/
def correctResponse (q : EngRequest) : EngResponse := ⟨false, 16, Config.engineDec q.key q.alg q.data⟩

/-- ENGINE_OK(h, a) at a step (R188): if the step is the engine's answer to a request of key h and algorithm a, it is the correct
response. -/
def EngineOk (h a : Word) (s : State) : Prop :=
  ∀ rsp rest q, s.agenda = .engineAnswer rsp :: rest → s.engine.pending = some q → q.key = h → q.alg = a →
    rsp = correctResponse q

/-- The working values of the source's algorithm: A and R[1..4]. -/
structure Work where
  a : Semiblock
  r : Vector Semiblock 4
  deriving DecidableEq, Repr

/-- Step 1 of the source's algorithm: the split of the wrapped key (41_unwrap_sequencer.md R146). -/
def unwrapSplit (win : Vector Byte 40) (n : Nat) : Work where
  a := winSemiblock win 0
  r := Vector.ofFn fun k => if k.val < n then winSemiblock win (k.val + 1) else 0

/-- The pair (j, i) of the (k+1)-th round, k = 0 .. 6n - 1 (R147). -/
def pairOf (n k : Nat) : Nat × Nat := (5 - k / n, n - k % n)

/-- One round of step 2 at (j, i): t = n*j + i is XORed into A as a 64-bit number (R151), the block A || R[i] is decrypted, and its
halves are the new A and R[i]. -/
def unwrapRound (dec : Block → Block) (n j i : Nat) (w : Work) : Work :=
  let b := dec ((w.a ^^^ BitVec.ofNat 64 (n * j + i)) ++ w.r[i - 1]?.getD 0)
  { a := b.extractLsb' 64 64, r := w.r.setIfInBounds (i - 1) (b.extractLsb' 0 64) }

/-- The first k rounds of step 2. -/
def unwrapRounds (dec : Block → Block) (n : Nat) (w : Work) : Nat → Work
  | 0 => w
  | k + 1 => unwrapRound dec n (pairOf n k).1 (pairOf n k).2 (unwrapRounds dec n w k)

/-- The working values after k rounds on the state's own operands, with the engine's decryption under its handle and algorithm. -/
def State.reference (s : State) (k : Nat) : Work :=
  unwrapRounds (Config.engineDec s.kekHandle s.algId) s.n.toNat (unwrapSplit s.win s.n.toNat) k

/-- The run in progress is the source's algorithm: in ISSUE and FINAL, A and R are the working values after the rounds done; in
WAIT, A has t XORed in and a presented response is the decryption of the present block. -/
def Refines (s : State) : Prop :=
  match s.phase with
  | .idle | .validate => True
  | .issue => s.a = (s.reference (6 * s.n.toNat - s.pairsLeft)).a ∧ s.r = (s.reference (6 * s.n.toNat - s.pairsLeft)).r
  | .wait =>
    s.a = (s.reference (6 * s.n.toNat - s.pairsLeft)).a ^^^ BitVec.ofNat 64 s.pairsLeft ∧
    s.r = (s.reference (6 * s.n.toNat - s.pairsLeft)).r ∧
    ∀ rsp, s.engine.response = some rsp →
      rsp = ⟨false, 16, Config.engineDec s.kekHandle s.algId (s.a ++ s.r[s.i.toNat - 1]?.getD 0)⟩
  | .final => s.a = (s.reference (6 * s.n.toNat)).a ∧ s.r = (s.reference (6 * s.n.toNat)).r

/-! ### Progress -/

/-- A bound on the sequencer steps to the end of the run (70_reset_and_hazards.md R252): 2 + 2*6N at VALIDATE. -/
def State.seqStepsLeft (s : State) : Nat :=
  match s.phase with
  | .idle => 0
  | .validate => if inputsValid s.keybits s.wlen then 2 + 12 * (semiblockCount s.keybits).toNat else 1
  | .issue => 2 * s.pairsLeft + 1
  | .wait => 2 * s.pairsLeft
  | .final => 1

/-! ### Fairness

Premises of claims that a run ends (70_reset_and_hazards.md R252, 92_eei_decisions.md section 6). No step of the machine has them
built in (log 16): a claim takes them as hypotheses on a run without end. -/

/-- A run without end: from σ k the event e k is taken, as the one entry of the agenda, and leads to σ (k + 1). -/
def RunOf (e : Nat → Event) (σ : Nat → State) : Prop := ∀ k, step { σ k with agenda := [e k] } = .next (σ (k + 1))

/-- SEQ_FAIR (R252): a sequencer step that stays enabled is eventually taken. -/
def SeqFair (e : Nat → Event) (σ : Nat → State) : Prop :=
  ∀ k, (∀ m, k ≤ m → (σ m).seqEnabled = true) → ∃ m, k ≤ m ∧ e m = .sequencer

/-- ENGINE_LIVE (R252): each accepted request is eventually answered, and the engine eventually accepts a request it is offered. A
reset, which drops the request (R232, R233), ends the duty. -/
structure EngineLive (e : Nat → Event) (σ : Nat → State) : Prop where
  answers : ∀ k, (σ k).engine.pending.isSome →
    ∃ m, k ≤ m ∧ (((∃ rsp, e m = .engineAnswer rsp) ∧ (σ m).answerEnabled = true) ∨ e m = .reset)
  accepts : ∀ k, (σ k).engReqValid = true → ∃ m, k ≤ m ∧ ((e m = .engineAccept ∧ (σ m).acceptEnabled = true) ∨ e m = .reset)

/-- The sequencer steps taken in the n steps of a run from its k-th state. -/
def seqStepsTaken (e : Nat → Event) (σ : Nat → State) (k : Nat) : Nat → Nat
  | 0 => 0
  | n + 1 => seqStepsTaken e σ k n + if e (k + n) = .sequencer ∧ (σ (k + n)).seqEnabled = true then 1 else 0

/-! ### What the host can see -/

/-- Two states no host access can tell apart: equal in all but A, WIN, REQ, the engine and the agenda, and in R too unless a key is
readable (10_state.md R22, R23, R48, R49, R51). -/
structure HostEqual (s t : State) : Prop where
  phase : s.phase = t.phase
  position : s.n = t.n ∧ s.j = t.j ∧ s.i = t.i ∧ s.t = t.t ∧ s.calls = t.calls
  status : s.result = t.result ∧ s.detail = t.detail ∧ s.ignored = t.ignored
  event : s.eventDone = t.eventDone ∧ s.inten = t.inten
  operands : s.kekHandle = t.kekHandle ∧ s.algId = t.algId ∧ s.keybits = t.keybits ∧ s.wlen = t.wlen
  reads : s.reads = t.reads
  key : s.result = .ok → s.r = t.r

/-- Two states whose runs must go alike (41_unwrap_sequencer.md R162): equal working state, lengths, WIN up to the end of the input, and
engine answers; KEK_HANDLE, ALG_ID, INTEN, IGNORED, the rest of WIN and what the host has read may differ. -/
structure RunEqual (s t : State) : Prop where
  phase : s.phase = t.phase
  work : s.a = t.a ∧ s.r = t.r
  position : s.n = t.n ∧ s.j = t.j ∧ s.i = t.i ∧ s.t = t.t ∧ s.calls = t.calls
  status : s.result = t.result ∧ s.detail = t.detail
  lengths : s.keybits = t.keybits ∧ s.wlen = t.wlen
  input : ∀ k, k < 8 * (semiblockCount s.keybits).toNat + 8 → winByte s.win k = winByte t.win k
  request : s.req.map EngRequest.data = t.req.map EngRequest.data
  pending : s.engine.pending.map EngRequest.data = t.engine.pending.map EngRequest.data
  response : s.engine.response = t.engine.response

end Sys2Proof.Machine
end

