-- ==== Sys2Proof/Certificates/Slice0/Obligations.lean ====
section
/-! DEFINITION. The statements for the provers, from the numbered rules of spec/. A next state is written out as a record, so that it is
the effect and the frame at once: every field it does not name is unchanged. -/

open Sys2Proof Sys2Proof.Machine

/-! ### Encoding -/

/-- Decoding the encoding of any well-formed instruction gives the instruction back, as a transaction and as a table word: no operand bit
is dropped (30_encoding.md R81 to R84; the packing of a table word is the model's, log 6). -/
def Obligations.DecodeEncodeRoundTrip : Prop :=
  ∀ i : Instr, i.WellFormed →
    decode (encode i) = .ok i ∧ decodeTableWord (encodeTableWord i).1 (encodeTableWord i).2 = some i

/-- Encoding what was decoded gives the transaction back: every bit of an access in the format is part of the instruction, but the ignored
bits [31:4] of a command word (R81, R83); and the decoder answers only well-formed instructions. -/
def Obligations.EncodeDecodeRoundTrip : Prop :=
  ∀ (tr : Transaction) (i : Instr), decode tr = .ok i →
    i.WellFormed ∧
    encode i = (match tr with
      | .command w => .command (w &&& 0xF)
      | other => other)

/-- A few words of the spec's encodings (R82, R84, 95_test_vectors.md) decode to what they stand for. -/
def Obligations.SpecWordsDecode : Prop :=
  decode (.command 0x00000001) = .ok .start ∧
  decode (.command 0x00000011) = .ok .start ∧
  decode (.command 0x00000008) = .ok (.reservedCmd 8) ∧
  decode (.write 0x000 32 0x00000002) = .ok (.wrCtrl 2) ∧
  decode (.write 0x02C 32 0x00000018) = .ok (.wrWlen 0x18) ∧
  decode (.write 0x064 32 0x12345678) = .ok (.wrWin 9 0x12345678) ∧
  decode (.read 0x09C 32) = .ok (.rdKeyout 7) ∧
  decode (.read 0x0A0 32) = .ok (.rdReserved 0x0A0)

/-- R83, R84: a command word is decoded by wdata[3:0] alone, by the codes of R84; the reserved codes are exactly the three match and mask
rows; and nothing else is a command. -/
def Obligations.CommandCodes : Prop :=
  ∀ w : Word,
    (w &&& 0xF = 0x0 → decode (.command w) = .ok .nop) ∧
    (w &&& 0xF = 0x1 → decode (.command w) = .ok .start) ∧
    (w &&& 0xF = 0x2 → decode (.command w) = .ok .clear) ∧
    ((w &&& 0xF = 0x3 ∨ w &&& 0xC = 0x4 ∨ w &&& 0x8 = 0x8) →
      decode (.command w) = .ok (.reservedCmd (w.setWidth 4))) ∧
    (w &&& 0xF = 0x0 ∨ w &&& 0xF = 0x1 ∨ w &&& 0xF = 0x2 ∨ w &&& 0xF = 0x3 ∨ w &&& 0xC = 0x4 ∨ w &&& 0x8 = 0x8)

/-- R82: the register an aligned offset selects, on a write and on a read; every other aligned offset is reserved. -/
def Obligations.OffsetSelectsRegister : Prop :=
  ∀ (off : Offset) (d : Word), off.toNat % 4 = 0 →
    let k := off.toNat / 4
    (k = 0x000 → decode (.write off 32 d) = .ok (.wrCtrl d) ∧ decode (.read off 32) = .ok .rdCtrl) ∧
    (k = 0x001 → decode (.write off 32 d) = .ok (.wrRoStatus d) ∧ decode (.read off 32) = .ok .rdStatus) ∧
    (k = 0x002 → decode (.write off 32 d) = .ok (.wrRoDetail d) ∧ decode (.read off 32) = .ok .rdDetail) ∧
    (k = 0x003 → decode (.write off 32 d) = .ok (.wrRoProgress d) ∧ decode (.read off 32) = .ok .rdProgress) ∧
    (k = 0x004 → decode (.write off 32 d) = .ok (.wrInten d) ∧ decode (.read off 32) = .ok .rdInten) ∧
    (k = 0x005 → decode (.write off 32 d) = .ok (.wrEventDone d) ∧ decode (.read off 32) = .ok .rdEventDone) ∧
    (k = 0x008 → decode (.write off 32 d) = .ok (.wrKekHandle d) ∧ decode (.read off 32) = .ok .rdKekHandle) ∧
    (k = 0x009 → decode (.write off 32 d) = .ok (.wrAlgId d) ∧ decode (.read off 32) = .ok .rdAlgId) ∧
    (k = 0x00A → decode (.write off 32 d) = .ok (.wrKeybits d) ∧ decode (.read off 32) = .ok .rdKeybits) ∧
    (k = 0x00B → decode (.write off 32 d) = .ok (.wrWlen d) ∧ decode (.read off 32) = .ok .rdWlen) ∧
    (∀ w : Fin 10, k = 0x010 + w.val →
      decode (.write off 32 d) = .ok (.wrWin w d) ∧ decode (.read off 32) = .ok (.rdWin w)) ∧
    (∀ w : Fin 8, k = 0x020 + w.val →
      decode (.write off 32 d) = .ok (.wrRoKeyout w d) ∧ decode (.read off 32) = .ok (.rdKeyout w)) ∧
    ((6 ≤ k ∧ k ≤ 7) ∨ (0x00C ≤ k ∧ k ≤ 0x00F) ∨ (0x01A ≤ k ∧ k ≤ 0x01F) ∨ 0x028 ≤ k →
      decode (.write off 32 d) = .ok (.wrReserved off d) ∧ decode (.read off 32) = .ok (.rdReserved off))

/-! ### The step -/

/-- A step whose next event is a host transaction runs the decoded instruction: step is exec of it, at the state whose agenda has lost that
event (20_memory.md R72; the agenda is the model's, log 1). -/
def Obligations.StepRunsDecodedInstruction : Prop :=
  ∀ (s : State) (tr : Transaction) (rest : List Event) (i : Instr),
    s.agenda = .host tr :: rest → decode tr = .ok i → step s = exec i { s with agenda := rest }

/-- R129: an access with size != 32 or off[1:0] != 00 is refused, whatever the state: the step has no next state and the run ends refused.
Every other access is not refused. -/
def Obligations.AccessOutsideFormatIsRefused : Prop :=
  ∀ (s : State) (rest : List Event) (off : Offset) (size : Nat) (d : Word),
    ((size ≠ 32 ∨ off.toNat % 4 ≠ 0) →
      (∃ r, step { s with agenda := .host (.read off size) :: rest } = .refused r) ∧
      (∃ r, step { s with agenda := .host (.write off size d) :: rest } = .refused r)) ∧
    (size = 32 ∧ off.toNat % 4 = 0 →
      (∃ t, step { s with agenda := .host (.read off size) :: rest } = .next t) ∧
      (∃ t, step { s with agenda := .host (.write off size d) :: rest } = .next t))

/-- Each event runs its agent's step: the sequencer's VALIDATE, ISSUE, RESPOND and FINAL by PHASE, the engine's ACCEPT and ANSWER where R183 and R184
enable them, and reset (which keeps the host's reads and the agenda, the model's choice, log 10). An event whose step is not enabled, like an empty
agenda, changes nothing (the model's choice, log 2). -/
def Obligations.StepTakesTheAgentsStep : Prop :=
  ∀ (s : State) (rest : List Event) (q : EngRequest) (rsp : EngResponse),
    (s.agenda = [] → step s = .next s) ∧
    (s.agenda = .sequencer :: rest → s.seqEnabled = false → step s = .next { s with agenda := rest }) ∧
    (s.agenda = .engineAccept :: rest → (s.req = none ∨ s.engine.pending.isSome ∨ s.engine.response.isSome) →
      step s = .next { s with agenda := rest }) ∧
    (s.agenda = .engineAnswer rsp :: rest → (s.engine.pending = none ∨ s.engine.response.isSome) →
      step s = .next { s with agenda := rest }) ∧
    (s.agenda = .sequencer :: rest → s.phase = .validate →
      step s = .next (seqValidate { s with agenda := rest })) ∧
    (s.agenda = .sequencer :: rest → s.phase = .issue → step s = seqIssue { s with agenda := rest }) ∧
    (s.agenda = .sequencer :: rest → s.phase = .wait → s.engine.response = some rsp →
      step s = seqRespond rsp { s with agenda := rest }) ∧
    (s.agenda = .sequencer :: rest → s.phase = .final → step s = .next (seqFinal { s with agenda := rest })) ∧
    (s.agenda = .engineAccept :: rest → s.req = some q → s.engine.pending = none → s.engine.response = none →
      step s = .next { s with agenda := rest, req := none, engine := ⟨some q, none⟩ }) ∧
    (s.agenda = .engineAnswer rsp :: rest → s.engine.pending.isSome → s.engine.response = none →
      step s = .next { s with agenda := rest, engine := ⟨none, some rsp⟩ }) ∧
    (s.agenda = .reset :: rest → step s = .next { State.reset with reads := s.reads, agenda := rest })

/-! ### Reset -/

/-- R54: after reset every element of R20 has the value 0, every register of R40 reads 0, and irq is 0. -/
def Obligations.ResetStateIsZero : Prop :=
  State.reset.phase = .idle ∧ Phase.code .idle = 0 ∧ State.reset.a = 0 ∧ (∀ k, k < 4 → State.reset.r[k]? = some 0) ∧
  State.reset.n = 0 ∧ State.reset.j = 0 ∧ State.reset.i = 0 ∧ State.reset.t = 0 ∧ State.reset.calls = 0 ∧
  State.reset.result = .none ∧ ResultCode.code .none = 0 ∧ State.reset.detail = 0 ∧ State.reset.ignored = false ∧
  State.reset.eventDone = false ∧ State.reset.inten = false ∧ State.reset.kekHandle = 0 ∧ State.reset.algId = 0 ∧
  State.reset.keybits = 0 ∧ State.reset.wlen = 0 ∧ (∀ k, k < 40 → State.reset.win[k]? = some 0) ∧
  State.reset.req = none ∧ State.reset.irq = false ∧
  ∀ off : Offset, off.toNat % 4 = 0 →
    step { State.reset with agenda := [.host (.read off 32)] } = .next { State.reset with reads := [0] }

/-- R232, and R230's and R233's effect: reset as a step, taken in any state, gives every element of KUW its reset value, so a run is
abandoned with no result and no event, A and R are zeroed, REQ is dropped, and the engine holds nothing. What the host has read and the
agenda stay (the model's choice, log 10). -/
def Obligations.ResetStepAbandonsTheRun : Prop :=
  ∀ (s : State) (rest : List Event), s.agenda = .reset :: rest →
    ∃ t, step s = .next t ∧ t = { State.reset with reads := s.reads, agenda := rest } ∧
      t.result = .none ∧ t.eventDone = false ∧ t.a = 0 ∧ (∀ k, k < 4 → t.r[k]? = some 0) ∧ t.req = none ∧
      t.engine.pending = none ∧ t.engine.response = none

/-! ### CTRL commands -/

/-- R103: NOP, any word with wdata[3:0] = 0, changes nothing, in IDLE and while BUSY. -/
def Obligations.NopChangesNothing : Prop :=
  ∀ s : State, exec .nop s = .next s ∧ ∀ w : Word, w &&& 0xF = 0x0 → decode (.command w) = .ok .nop

/-- R104: START. Accepted in IDLE it clears the result, the event, the position, A and R and enters VALIDATE, with the flags and the key
output as the rule says; while BUSY it only sets IGNORED. -/
def Obligations.StartCommand : Prop :=
  ∀ s : State,
    (∀ w : Word, w &&& 0xF = 0x1 → decode (.command w) = .ok .start) ∧
    (s.phase ≠ .idle → exec .start s = .next { s with ignored := true }) ∧
    (s.phase = .idle → ∃ t, exec .start s = .next t ∧
      t = { s with
            result := .none, detail := 0, ignored := false, eventDone := false
            n := 0, j := 0, i := 0, t := 0, calls := 0
            a := 0, r := #v[0, 0, 0, 0]
            phase := .validate } ∧
      t.statusWord = 0x00000101 ∧ t.detailWord = 0 ∧ t.progressWord = 0 ∧ t.irq = false ∧ ∀ w, t.keyoutWord w = 0)

/-- R105: CLEAR. Accepted in IDLE it zeroes the result, the event, the position, A, R and WIN; the operand registers and INTEN stay; while
BUSY it only sets IGNORED. -/
def Obligations.ClearCommand : Prop :=
  ∀ s : State,
    (∀ w : Word, w &&& 0xF = 0x2 → decode (.command w) = .ok .clear) ∧
    (s.phase ≠ .idle → exec .clear s = .next { s with ignored := true }) ∧
    (s.phase = .idle → ∃ t, exec .clear s = .next t ∧
      t = { s with
            result := .none, detail := 0, ignored := false, eventDone := false
            n := 0, j := 0, i := 0, t := 0, calls := 0
            a := 0, r := #v[0, 0, 0, 0]
            win := Vector.replicate 40 0 } ∧
      t.statusWord = 0 ∧ t.detailWord = 0 ∧ t.progressWord = 0 ∧ t.eventDone = false ∧ ∀ w, t.keyoutWord w = 0)

/-- R106: a reserved command, 0x3 to 0xF, sets IGNORED and changes nothing else, in IDLE and while BUSY. -/
def Obligations.ReservedCommandOnlySetsIgnored : Prop :=
  ∀ (s : State) (cmd : BitVec 4), 3 ≤ cmd.toNat →
    exec (.reservedCmd cmd) s = .next { s with ignored := true } ∧
    ∀ w : Word, w.setWidth 4 = cmd → decode (.command w) = .ok (.reservedCmd cmd)

/-- R102: a write to CTRL performs the command rule of wdata[3:0], and wdata[31:4] is ignored; so a NOP word changes nothing, a START word in IDLE starts
a run, a CLEAR word in IDLE zeroes WIN, and a reserved word only sets IGNORED. -/
def Obligations.WriteCtrlPerformsTheCommand : Prop :=
  ∀ (s : State) (w : Word),
    decode (.write 0x000 32 w) = .ok (.wrCtrl w) ∧
    (w &&& 0xF = 0x0 → exec (.wrCtrl w) s = exec .nop s ∧ exec (.wrCtrl w) s = .next s) ∧
    (w &&& 0xF = 0x1 → exec (.wrCtrl w) s = exec .start s ∧
      (s.phase = .idle → ∃ t, exec (.wrCtrl w) s = .next t ∧ t.phase = .validate ∧ t.win = s.win)) ∧
    (w &&& 0xF = 0x2 → exec (.wrCtrl w) s = exec .clear s ∧
      (s.phase = .idle → ∃ t, exec (.wrCtrl w) s = .next t ∧ t.phase = .idle ∧ t.win = Vector.replicate 40 0)) ∧
    (∀ cmd : BitVec 4, 3 ≤ cmd.toNat → w.setWidth 4 = cmd →
      exec (.wrCtrl w) s = exec (.reservedCmd cmd) s ∧ exec (.wrCtrl w) s = .next { s with ignored := true })

/-! ### Host writes -/

/-- R107 and R115: a write to a read-only register or to a reserved offset changes nothing at all, IGNORED included. -/
def Obligations.IneffectiveWrites : Prop :=
  ∀ (s : State) (d : Word) (w : Fin 8) (off : Offset),
    exec (.wrRoStatus d) s = .next s ∧ exec (.wrRoDetail d) s = .next s ∧ exec (.wrRoProgress d) s = .next s ∧
    exec (.wrRoKeyout w d) s = .next s ∧ exec (.wrReserved off d) s = .next s

/-- R108: a write to INTEN stores wdata[0], in every phase, and irq is then INTEN & EVENT_DONE. -/
def Obligations.WriteInten : Prop :=
  ∀ (s : State) (d : Word),
    ∃ t, exec (.wrInten d) s = .next t ∧ t = { s with inten := d.getLsbD 0 } ∧ t.irq = (d.getLsbD 0 && s.eventDone)

/-- R109: a write to EVENT_DONE with wdata[0] = 0 clears the event and so irq; with wdata[0] = 1 it has no effect. -/
def Obligations.WriteEventDone : Prop :=
  ∀ (s : State) (d : Word),
    (d.getLsbD 0 = false → ∃ t, exec (.wrEventDone d) s = .next t ∧ t = { s with eventDone := false } ∧ t.irq = false) ∧
    (d.getLsbD 0 = true → exec (.wrEventDone d) s = .next s)

/-- R110 to R113: a write to an operand register stores all 32 bits in IDLE, and while BUSY only sets IGNORED. -/
def Obligations.WriteOperandRegisters : Prop :=
  ∀ (s : State) (d : Word),
    (s.phase = .idle →
      exec (.wrKekHandle d) s = .next { s with kekHandle := d } ∧ exec (.wrAlgId d) s = .next { s with algId := d } ∧
      exec (.wrKeybits d) s = .next { s with keybits := d } ∧ exec (.wrWlen d) s = .next { s with wlen := d }) ∧
    (s.phase ≠ .idle →
      exec (.wrKekHandle d) s = .next { s with ignored := true } ∧ exec (.wrAlgId d) s = .next { s with ignored := true } ∧
      exec (.wrKeybits d) s = .next { s with ignored := true } ∧ exec (.wrWlen d) s = .next { s with ignored := true })

/-- R114: a write to WINw in IDLE puts wdata[8m+7 : 8m] into WIN[4w+m], m = 0..3, and leaves every other byte of WIN and every other element;
while BUSY it only sets IGNORED. -/
def Obligations.WriteWinWord : Prop :=
  ∀ (s : State) (w : Fin 10) (d : Word),
    (s.phase ≠ .idle → exec (.wrWin w d) s = .next { s with ignored := true }) ∧
    (s.phase = .idle → ∃ t, exec (.wrWin w d) s = .next t ∧ t = { s with win := t.win } ∧
      (∀ m, m < 4 → t.win[4 * w.val + m]? = some (d.extractLsb' (8 * m) 8)) ∧
      ∀ k, k < 4 * w.val ∨ 4 * w.val + 4 ≤ k → t.win[k]? = s.win[k]?)

/-! ### Host reads -/

/-- R116, R120 to R126, R128: the value each of these reads returns; a read changes nothing else. -/
def Obligations.ReadPlainRegisters : Prop :=
  ∀ (s : State) (w : Fin 10) (off : Offset),
    exec .rdCtrl s = .next { s with reads := 0 :: s.reads } ∧
    exec .rdInten s = .next { s with reads := (if s.inten then 1 else 0) :: s.reads } ∧
    exec .rdEventDone s = .next { s with reads := (if s.eventDone then 1 else 0) :: s.reads } ∧
    exec .rdKekHandle s = .next { s with reads := s.kekHandle :: s.reads } ∧
    exec .rdAlgId s = .next { s with reads := s.algId :: s.reads } ∧
    exec .rdKeybits s = .next { s with reads := s.keybits :: s.reads } ∧
    exec .rdWlen s = .next { s with reads := s.wlen :: s.reads } ∧
    exec (.rdWin w) s = .next { s with reads := 0 :: s.reads } ∧
    exec (.rdReserved off) s = .next { s with reads := 0 :: s.reads }

/-- R117: STATUS as read, field by field, in the layout of R42 with the codes of R21 and R200; while BUSY, RESULT reads NONE in every state of the
invariant. -/
def Obligations.ReadStatus : Prop :=
  ∀ s : State, ∃ v : Word, exec .rdStatus s = .next { s with reads := v :: s.reads } ∧
    v.getLsbD 0 = decide (s.phase ≠ .idle) ∧
    v.getLsbD 1 = s.ignored ∧
    v.extractLsb' 2 2 = 0 ∧
    v.extractLsb' 4 4 = (match s.result with
      | .none => 0
      | .ok => 1
      | .invalidInputLength => 2
      | .cipherEngineError => 3
      | .integrityCheckFailed => 4) ∧
    v.extractLsb' 8 3 = (match s.phase with
      | .idle => 0
      | .validate => 1
      | .issue => 2
      | .wait => 3
      | .final => 4) ∧
    v.extractLsb' 11 21 = 0 ∧
    (Inv s → s.phase ≠ .idle → v.extractLsb' 4 4 = 0)

/-- R118: DETAIL as read: the stored fields of R43, and 0 in every reserved bit. -/
def Obligations.ReadDetail : Prop :=
  ∀ s : State, ∃ v : Word, exec .rdDetail s = .next { s with reads := v :: s.reads } ∧
    v.extractLsb' 0 3 = s.detail.extractLsb' 0 3 ∧ v.extractLsb' 3 5 = 0 ∧
    v.extractLsb' 8 2 = s.detail.extractLsb' 8 2 ∧ v.extractLsb' 10 6 = 0 ∧
    v.extractLsb' 16 5 = s.detail.extractLsb' 16 5 ∧ v.extractLsb' 21 11 = 0

/-- R44 and R119: PROGRESS as read, field by field. -/
def Obligations.ReadProgress : Prop :=
  ∀ s : State, ∃ v : Word, exec .rdProgress s = .next { s with reads := v :: s.reads } ∧
    v.extractLsb' 0 3 = s.j ∧ v.extractLsb' 3 1 = 0 ∧ v.extractLsb' 4 3 = s.i ∧ v.extractLsb' 7 1 = 0 ∧
    v.extractLsb' 8 3 = s.n ∧ v.extractLsb' 11 5 = 0 ∧ v.extractLsb' 16 8 = s.calls ∧ v.extractLsb' 24 8 = s.t

/-- R49 and R127: lane m of KEYOUTw is byte (b mod 8) of R[b div 8 + 1], b = 4w + m, when RESULT = OK and b < 8N, and 0 otherwise. -/
def Obligations.ReadKeyout : Prop :=
  ∀ (s : State) (w : Fin 8), ∃ v : Word, exec (.rdKeyout w) s = .next { s with reads := v :: s.reads } ∧
    ∀ m, m < 4 →
      let b := 4 * w.val + m
      (s.result = .ok → b < 8 * s.n.toNat → ∀ x, s.r[b / 8]? = some x →
        v.extractLsb' (8 * m) 8 = x.extractLsb' (56 - 8 * (b % 8)) 8) ∧
      (¬ (s.result = .ok ∧ b < 8 * s.n.toNat) → v.extractLsb' (8 * m) 8 = 0)

/-- R69: no read has a side effect, and every read is idempotent: a read answers a next state that differs only in the value the host has, and
a second read with no step between returns the same value. -/
def Obligations.ReadsHaveNoSideEffect : Prop :=
  ∀ (i : Instr) (s : State), isRead i = true →
    ∃ v, exec i s = .next { s with reads := v :: s.reads } ∧
      exec i { s with reads := v :: s.reads } = .next { s with reads := v :: v :: s.reads }

/-! ### All host instructions -/

/-- R101: while PHASE != IDLE a gated write changes nothing except IGNORED <- 1; the writes that are not gated, NOP and the reads do not set
IGNORED; a reserved command, which R101 does not speak of, sets it and nothing else (R106); INTEN and EVENT_DONE are written as in IDLE; and no host
instruction changes an operand of the run. -/
def Obligations.BusyGating : Prop :=
  ∀ (i : Instr) (s : State), i.WellFormed → s.phase ≠ .idle →
    (isGated i = true → exec i s = .next { s with ignored := true }) ∧
    (isReservedCommand i = true → exec i s = .next { s with ignored := true }) ∧
    (isGated i = false → isReservedCommand i = false → ∃ t, exec i s = .next t ∧ t.ignored = s.ignored) ∧
    (∀ d, exec (.wrInten d) s = .next { s with inten := d.getLsbD 0 }) ∧
    (∀ d, exec (.wrEventDone d) s = .next { s with eventDone := d.getLsbD 0 && s.eventDone }) ∧
    ∃ t, exec i s = .next t ∧ t.kekHandle = s.kekHandle ∧ t.algId = s.algId ∧ t.keybits = s.keybits ∧ t.wlen = s.wlen ∧
      t.win = s.win

/-- While a run is in progress no host instruction touches it: only IGNORED, INTEN, EVENT_DONE and what the host has read can change
(R101, 41_unwrap_sequencer.md R163). -/
def Obligations.HostCannotDisturbARun : Prop :=
  ∀ (i : Instr) (s : State), s.phase ≠ .idle →
    ∃ t, exec i s = .next t ∧
      t = { s with ignored := t.ignored, inten := t.inten, eventDone := t.eventDone, reads := t.reads }

/-- R34: only a host write to INTEN and reset change INTEN. -/
def Obligations.IntenWriters : Prop :=
  ∀ s t : State, step s = .next t → t.inten ≠ s.inten →
    (∃ rest, s.agenda = .reset :: rest) ∨ (∃ tr d rest, s.agenda = .host tr :: rest ∧ decode tr = .ok (.wrInten d))

/-- R32: IGNORED after a step, for every step: set by a gated write while BUSY and by a reserved command, cleared by an accepted START or CLEAR
and by reset, and otherwise unchanged. -/
def Obligations.IgnoredWriters : Prop :=
  ∀ s t : State, step s = .next t →
    t.ignored = (match s.agenda with
      | [] => s.ignored
      | .reset :: _ => false
      | .host tr :: _ =>
        (match decode tr with
        | .ok i =>
          if s.phase ≠ .idle ∧ isGated i = true ∨ isReservedCommand i = true then true
          else if s.phase = .idle ∧ isStartOrClear i = true then false
          else s.ignored
        | .error _ => s.ignored)
      | _ :: _ => s.ignored)

/-- R33: EVENT_DONE after a step, for every step: `terminate` sets it, which is the sequencer's step to IDLE; an accepted START or CLEAR, a write
of 0 to bit 0 of the EVENT_DONE register and reset clear it; and otherwise it is unchanged. -/
def Obligations.EventDoneWriters : Prop :=
  ∀ s t : State, step s = .next t →
    t.eventDone = (match s.agenda with
      | [] => s.eventDone
      | .reset :: _ => false
      | .host tr :: _ =>
        (match decode tr with
        | .ok i => if clearsEvent i = true ∨ s.phase = .idle ∧ isStartOrClear i = true then false else s.eventDone
        | .error _ => s.eventDone)
      | .sequencer :: _ => s.eventDone || (decide (s.phase ≠ .idle) && decide (t.phase = .idle))
      | _ :: _ => s.eventDone)

/-- R39: only host writes to the WIN window, CLEAR and reset change WIN. -/
def Obligations.WinWriters : Prop :=
  ∀ s t : State, step s = .next t → t.win ≠ s.win →
    (∃ rest, s.agenda = .reset :: rest) ∨
    (∃ tr i rest, s.agenda = .host tr :: rest ∧ decode tr = .ok i ∧ s.phase = .idle ∧
      (commandCode i = some 2 ∨ ∃ w d, i = .wrWin w d))

/-- R161: a run writes nothing outside KUW except its engine requests and never writes WIN, KEK_HANDLE, ALG_ID, KEYBITS, WLEN or INTEN: no step of
the sequencer or of the engine changes them, or what the host has read, and a sequencer step writes nothing into the engine. -/
def Obligations.RunWritesNoOperand : Prop :=
  ∀ s t : State, ∀ e rest, s.agenda = e :: rest → (∀ tr, e ≠ .host tr) → e ≠ .reset → step s = .next t →
    t.win = s.win ∧ t.kekHandle = s.kekHandle ∧ t.algId = s.algId ∧ t.keybits = s.keybits ∧ t.wlen = s.wlen ∧
    t.inten = s.inten ∧ t.ignored = s.ignored ∧ t.reads = s.reads ∧
    (e = .sequencer → t.engine = s.engine ∨ t.engine = ⟨s.engine.pending, none⟩)

/-! ### VALIDATE -/

/-- R143 to R145: the operands VALIDATE accepts are exactly four, and each check holds exactly on its own condition. -/
def Obligations.ValidateAcceptsFourSizes : Prop :=
  ∀ kb wl : Word,
    (keybitsUnaligned kb = true ↔ kb.toNat % 64 ≠ 0) ∧
    (countOutOfRange kb = true ↔ kb.toNat / 64 < 1 ∨ 4 < kb.toNat / 64) ∧
    (lengthMismatch kb wl = true ↔ wl.toNat ≠ 8 * (kb.toNat / 64 + 1)) ∧
    (inputsValid kb wl = true ↔
      (kb = 64 ∧ wl = 16) ∨ (kb = 128 ∧ wl = 24) ∨ (kb = 192 ∧ wl = 32) ∨ (kb = 256 ∧ wl = 40))

/-- R142, R146: VALIDATE on valid inputs loads A and R[1..N] from WIN, byte 0 of each most significant, keeps R[N+1..4], latches N, starts at (5, N)
and moves to ISSUE; nothing else changes. -/
def Obligations.ValidateLoadsTheInput : Prop :=
  ∀ (s : State) (rest : List Event), s.agenda = .sequencer :: rest → s.phase = .validate →
    inputsValid s.keybits s.wlen = true →
    ∃ t, step s = .next t ∧
      t = { s with agenda := rest, n := t.n, a := t.a, r := t.r, j := 5, i := t.n, phase := .issue } ∧
      t.n.toNat = s.keybits.toNat / 64 ∧
      (∀ m, m < 8 → s.win[m]? = some (t.a.extractLsb' (56 - 8 * m) 8)) ∧
      (∀ k m x, k < t.n.toNat → m < 8 → t.r[k]? = some x →
        s.win[8 * (k + 1) + m]? = some (x.extractLsb' (56 - 8 * m) 8)) ∧
      ∀ k, t.n.toNat ≤ k → t.r[k]? = s.r[k]?

/-- R142, R201: VALIDATE on invalid inputs ends the run with INVALID_INPUT_LENGTH, records every failed check in DETAIL[2:0], zeroes A and R, sets
EVENT_DONE and issues no request; nothing else changes. -/
def Obligations.ValidateRejects : Prop :=
  ∀ (s : State) (rest : List Event), s.agenda = .sequencer :: rest → s.phase = .validate →
    inputsValid s.keybits s.wlen = false →
    ∃ t, step s = .next t ∧
      t = { s with
            agenda := rest, detail := t.detail, result := .invalidInputLength
            a := 0, r := #v[0, 0, 0, 0], phase := .idle, eventDone := true } ∧
      t.detail.getLsbD 0 = decide (s.keybits.toNat % 64 ≠ 0) ∧
      t.detail.getLsbD 1 = decide (s.keybits.toNat / 64 < 1 ∨ 4 < s.keybits.toNat / 64) ∧
      t.detail.getLsbD 2 = decide (s.wlen.toNat ≠ 8 * (s.keybits.toNat / 64 + 1)) ∧
      t.detail.extractLsb' 3 29 = 0

/-! ### ISSUE, RESPOND, FINAL -/

/-- R148, R151, R152: ISSUE with R[I] = x forms t = (N*J + I) mod 256, XORs it into the low-order byte of A and no other (which is the XOR with the 64-bit
t), fills REQ with A || R[I], KEK_HANDLE and ALG_ID, counts the call and moves to WAIT; nothing else changes. -/
def Obligations.IssueFormsTheRequest : Prop :=
  ∀ (s : State) (rest : List Event) (x : Semiblock), s.agenda = .sequencer :: rest → s.phase = .issue →
    1 ≤ s.i.toNat → s.r[s.i.toNat - 1]? = some x →
    ∃ t, step s = .next t ∧
      t = { s with
            agenda := rest, t := t.t, a := t.a, calls := s.calls + 1, phase := .wait
            req := some { data := t.a ++ x, key := s.kekHandle, alg := s.algId } } ∧
      t.t.toNat = (s.n.toNat * s.j.toNat + s.i.toNat) % 256 ∧
      t.a.extractLsb' 0 8 = s.a.extractLsb' 0 8 ^^^ t.t ∧ t.a.extractLsb' 8 56 = s.a.extractLsb' 8 56 ∧
      t.a = s.a ^^^ t.t.setWidth 64

/-- R155, R156: RESPOND on a good response commits its halves to A and R[I], keeps every other R[k], consumes the response and advances the indices;
nothing else changes. -/
def Obligations.RespondCommitsAndAdvances : Prop :=
  ∀ (s : State) (rest : List Event) (rsp : EngResponse), s.agenda = .sequencer :: rest → s.phase = .wait →
    s.engine.response = some rsp → rsp.err = false → rsp.len = 16 → 1 ≤ s.i.toNat → s.i.toNat ≤ 4 →
    ∃ t, step s = .next t ∧
      t = { s with
            agenda := rest, a := rsp.data.extractLsb' 64 64, r := t.r, engine := ⟨s.engine.pending, none⟩
            i := if 1 < s.i.toNat then s.i - 1 else if 0 < s.j.toNat then s.n else s.i
            j := if 1 < s.i.toNat then s.j else if 0 < s.j.toNat then s.j - 1 else s.j
            phase := if 1 < s.i.toNat ∨ 0 < s.j.toNat then .issue else .final } ∧
      t.r[s.i.toNat - 1]? = some (rsp.data.extractLsb' 0 64) ∧
      ∀ k, k ≠ s.i.toNat - 1 → t.r[k]? = s.r[k]?

/-- R153, R154, R194: RESPOND on a response with err = 1 or len != 16 ends the run with CIPHER_ENGINE_ERROR, records len, its mismatch and err in DETAIL,
zeroes A and R, sets EVENT_DONE and consumes the response; nothing else changes, and the response's data is written nowhere. -/
def Obligations.RespondEndsOnEngineError : Prop :=
  ∀ (s : State) (rest : List Event) (rsp : EngResponse), s.agenda = .sequencer :: rest → s.phase = .wait →
    s.engine.response = some rsp → (rsp.err = true ∨ rsp.len ≠ 16) →
    ∃ t, step s = .next t ∧
      t = { s with
            agenda := rest, engine := ⟨s.engine.pending, none⟩, detail := t.detail, result := .cipherEngineError
            a := 0, r := #v[0, 0, 0, 0], phase := .idle, eventDone := true } ∧
      t.detail.extractLsb' 0 8 = 0 ∧ t.detail.getLsbD 8 = rsp.err ∧ t.detail.getLsbD 9 = decide (rsp.len ≠ 16) ∧
      t.detail.extractLsb' 10 6 = 0 ∧ t.detail.extractLsb' 16 5 = rsp.len ∧ t.detail.extractLsb' 21 11 = 0

/-- R157, R158: FINAL compares all 64 bits of A with IV: equal, the run ends OK with A and R kept; different, it ends with INTEGRITY_CHECK_FAILED and A
and R zeroed; nothing else changes. -/
def Obligations.FinalChecksIntegrity : Prop :=
  ∀ (s : State) (rest : List Event), s.agenda = .sequencer :: rest → s.phase = .final →
    (s.a = 0xA6A6A6A6A6A6A6A6 → step s = .next { s with agenda := rest, result := .ok, phase := .idle, eventDone := true }) ∧
    (s.a ≠ 0xA6A6A6A6A6A6A6A6 →
      step s = .next { s with
        agenda := rest, result := .integrityCheckFailed, a := 0, r := #v[0, 0, 0, 0], phase := .idle, eventDone := true })

/-- R165, R166: `terminate(code)` sets RESULT, PHASE = IDLE and EVENT_DONE, keeps J, I, N, T, CALLS and DETAIL, and for any code but OK zeroes A and R[1..4],
so that every KEYOUT word reads 0. -/
def Obligations.TerminateLeavesNoPartialKey : Prop :=
  ∀ (s : State) (code : ResultCode),
    (code = .ok → s.terminate code = { s with result := .ok, phase := .idle, eventDone := true }) ∧
    (code ≠ .ok →
      s.terminate code = { s with result := code, a := 0, r := #v[0, 0, 0, 0], phase := .idle, eventDone := true } ∧
      ∀ w, (s.terminate code).keyoutWord w = 0)

/-- R147, R150: from (5, N) the sequencer's advance visits the pairs in the order of R147: after the k-th pair the position is that of the (k+1)-th, the
last is (0, 1), and the k-th pair has t = 6N - k + 1. -/
def Obligations.RoundsVisitPairsInOrder : Prop :=
  ∀ (s : State) (k : Nat), 1 ≤ s.n.toNat → s.n.toNat ≤ 4 → k < 6 * s.n.toNat →
    (s.j.toNat, s.i.toNat) = (5 - k / s.n.toNat, s.n.toNat - k % s.n.toNat) →
    (roundCounter s.n s.j s.i).toNat = 6 * s.n.toNat - k ∧
    (k + 1 < 6 * s.n.toNat → s.advance.phase = .issue ∧
      (s.advance.j.toNat, s.advance.i.toNat) =
        (5 - (k + 1) / s.n.toNat, s.n.toNat - (k + 1) % s.n.toNat)) ∧
    (k + 1 = 6 * s.n.toNat → s.advance.phase = .final ∧ s.advance.j.toNat = 0 ∧ s.advance.i.toNat = 1)

/-! ### The engine -/

/-- R183, R184: ACCEPT, enabled when REQ is full and the engine holds no request and no response, moves REQ to the engine; ANSWER, enabled when the engine
holds a request and no response, presents the response drawn, whatever it is, and drops the request. -/
def Obligations.EngineAcceptsAndAnswers : Prop :=
  ∀ (s : State) (rest : List Event) (q : EngRequest) (rsp : EngResponse),
    (s.agenda = .engineAccept :: rest → s.req = some q → s.engine = ⟨none, none⟩ →
      step s = .next { s with agenda := rest, req := none, engine := ⟨some q, none⟩ }) ∧
    (s.agenda = .engineAnswer rsp :: rest → s.engine = ⟨some q, none⟩ →
      ∃ t, step s = .next t ∧ t = { s with agenda := rest, engine := ⟨none, some rsp⟩ } ∧ t.engRspValid = true)

/-- R182, R187: from every state of the invariant, KUW holds a request on its ports, unchanged, until ACCEPT takes it or reset drops it; ACCEPT gives the
engine that same request; the engine holds it, unchanged, until ANSWER or reset; and a request carries the run's handle and algorithm after the step as
before it, as long as it is outstanding in KUW or in the engine. -/
def Obligations.RequestHeldUntilTaken : Prop :=
  ∀ (s t : State) (q : EngRequest), Inv s → step s = .next t →
    (s.req = some q → (∀ rest, s.agenda ≠ .engineAccept :: rest) → (∀ rest, s.agenda ≠ .reset :: rest) →
      t.req = some q ∧ t.engReqPorts = q ∧ t.engReqValid = true) ∧
    (s.req = some q → (∃ rest, s.agenda = .engineAccept :: rest) → t.req = none ∧ t.engine.pending = some q) ∧
    (s.engine.pending = some q → (∀ rsp rest, s.agenda ≠ .engineAnswer rsp :: rest) → (∀ rest, s.agenda ≠ .reset :: rest) →
      t.engine.pending = some q) ∧
    (s.req = some q ∨ s.engine.pending = some q → (∀ rest, s.agenda ≠ .reset :: rest) →
      q.key = s.kekHandle ∧ q.alg = s.algId ∧ t.kekHandle = s.kekHandle ∧ t.algId = s.algId)

/-- R190: KUW leaves WAIT only by taking a presented response, or by reset: there is no timeout and no abort. -/
def Obligations.NoTimeoutInWait : Prop :=
  ∀ s t : State, step s = .next t → s.phase = .wait → t.phase ≠ .wait →
    (∃ rest, s.agenda = .reset :: rest) ∨
    (∃ rsp rest, s.agenda = .sequencer :: rest ∧ s.engine.response = some rsp ∧ t.engine.response = none)

/-! ### The whole machine -/

/-- R141: the phase transitions are those of the table, and nothing else. -/
def Obligations.PhaseTransitions : Prop :=
  ∀ s t : State, step s = .next t → t.phase ≠ s.phase →
    (∃ rest, s.agenda = .reset :: rest ∧ t.phase = .idle) ∨
    (∃ tr i rest, s.agenda = .host tr :: rest ∧ decode tr = .ok i ∧ commandCode i = some 1 ∧ s.phase = .idle ∧
      t.phase = .validate) ∨
    (∃ rest, s.agenda = .sequencer :: rest ∧
      ((s.phase = .validate ∧ inputsValid s.keybits s.wlen = false ∧ t.phase = .idle ∧ t.result = .invalidInputLength) ∨
       (s.phase = .validate ∧ inputsValid s.keybits s.wlen = true ∧ t.phase = .issue) ∨
       (s.phase = .issue ∧ t.phase = .wait) ∨
       (∃ rsp, s.phase = .wait ∧ s.engine.response = some rsp ∧ (rsp.err = true ∨ rsp.len ≠ 16) ∧ t.phase = .idle ∧
         t.result = .cipherEngineError) ∨
       (∃ rsp, s.phase = .wait ∧ s.engine.response = some rsp ∧ rsp.err = false ∧ rsp.len = 16 ∧
         (0 < s.j.toNat ∨ 1 < s.i.toNat) ∧ t.phase = .issue) ∨
       (∃ rsp, s.phase = .wait ∧ s.engine.response = some rsp ∧ rsp.err = false ∧ rsp.len = 16 ∧
         s.j.toNat = 0 ∧ s.i.toNat = 1 ∧ t.phase = .final) ∨
       (s.phase = .final ∧ s.a = Config.iv ∧ t.phase = .idle ∧ t.result = .ok) ∨
       (s.phase = .final ∧ s.a ≠ Config.iv ∧ t.phase = .idle ∧ t.result = .integrityCheckFailed)))

/-- The invariant holds at reset, whatever the agenda. -/
def Obligations.ResetSatisfiesInvariant : Prop :=
  ∀ agenda : List Event, Inv { State.reset with agenda := agenda }

/-- Every step of every agent keeps the invariant, from every state that meets it. -/
def Obligations.StepKeepsInvariant : Prop :=
  ∀ s t : State, Inv s → step s = .next t → Inv t

/-- R56: every reachable state satisfies the stated invariants, whatever the agents do. -/
def Obligations.ReachableStatesSatisfyStatedInvariant : Prop :=
  ∀ s : State, Reachable s → StatedInvariant s

/-- R186: in every reachable state at most one request is outstanding, counting KUW's REQ, the engine's request and its response, and none outside
WAIT. -/
def Obligations.AtMostOneRequestOutstanding : Prop :=
  ∀ s : State, Reachable s → s.outstanding ≤ 1 ∧ (s.phase ≠ .wait → s.outstanding = 0)

/-- A step from a state of the invariant never faults, and is refused only for a host access outside the format. -/
def Obligations.InvariantStatesNeverFault : Prop :=
  ∀ s : State, Inv s →
    (∃ t, step s = .next t) ∨
    (∃ tr rest r, s.agenda = .host tr :: rest ∧ tr.inFormat = false ∧ step s = .refused r)

/-- R28, R149, R202, R203: what PROGRESS and DETAIL hold after any step from a state of the invariant, read from the result: OK and
INTEGRITY_CHECK_FAILED have all 6N calls made, at (0, 1), with T = 1 and DETAIL = 0; CIPHER_ENGINE_ERROR has CALLS the number of the failing call, 1 to 6N,
(J, I) its pair and T its round counter; INVALID_INPUT_LENGTH has PROGRESS = 0; and CALLS never exceeds 24. -/
def Obligations.CallsCountTheRequests : Prop :=
  ∀ s t : State, Inv s → step s = .next t →
    (t.result = .ok ∨ t.result = .integrityCheckFailed →
      t.calls.toNat = 6 * t.n.toNat ∧ 1 ≤ t.n.toNat ∧ t.n.toNat ≤ 4 ∧ t.j.toNat = 0 ∧ t.i.toNat = 1 ∧ t.t.toNat = 1 ∧
      t.detail = 0) ∧
    (t.result = .cipherEngineError →
      1 ≤ t.n.toNat ∧ t.n.toNat ≤ 4 ∧ t.j.toNat ≤ 5 ∧ 1 ≤ t.i.toNat ∧ t.i.toNat ≤ t.n.toNat ∧
      1 ≤ t.calls.toNat ∧ t.calls.toNat ≤ 6 * t.n.toNat ∧
      (t.j.toNat, t.i.toNat) = pairOf t.n.toNat (t.calls.toNat - 1) ∧
      t.t.toNat = t.n.toNat * t.j.toNat + t.i.toNat) ∧
    (t.result = .invalidInputLength → t.progressWord = 0) ∧
    t.calls.toNat ≤ 24

/-- The run in progress stays the source's algorithm: from a state of the invariant in which it is, every step of every agent keeps it so, under the
premise ENGINE_OK on the engine's answer (41_unwrap_sequencer.md R146 to R156, 42_engine_interface.md R188). It holds for every value of the
uninterpreted ENGINE_DEC (log 19). -/
def Obligations.StepRefinesUnwrap : Prop :=
  ∀ s t : State, Inv s → Refines s → EngineOk s.kekHandle s.algId s → step s = .next t → Refines t

/-- The end of a run is the end of the source's algorithm: FINAL ends OK, with R[1..N] the algorithm's key as KEYOUT presents it, exactly when the
algorithm's A is IV, and otherwise with INTEGRITY_CHECK_FAILED (41_unwrap_sequencer.md R157 to R159). -/
def Obligations.FinishedRunIsTheUnwrap : Prop :=
  ∀ (s : State) (rest : List Event), Inv s → Refines s → s.phase = .final → s.agenda = .sequencer :: rest →
    ∃ t, step s = .next t ∧ t.phase = .idle ∧
      ((s.reference (6 * s.n.toNat)).a = Config.iv →
        t.result = .ok ∧
        ∀ (w : Fin 8) (m : Nat), m < 4 → 4 * w.val + m < 8 * s.n.toNat →
          (t.keyoutWord w).extractLsb' (8 * m) 8 =
            byteOf ((4 * w.val + m) % 8) ((s.reference (6 * s.n.toNat)).r[(4 * w.val + m) / 8]?.getD 0)) ∧
      ((s.reference (6 * s.n.toNat)).a ≠ Config.iv → t.result = .integrityCheckFailed ∧ ∀ w, t.keyoutWord w = 0)

/-- The count-down of R252: each enabled sequencer step brings the end of the run nearer, from 2 + 2*6N at VALIDATE, and no step of any agent but an
accepted START puts it off. -/
def Obligations.RunEndsWithinBound : Prop :=
  ∀ s t : State, Inv s → step s = .next t →
    (∀ rest, s.agenda = .sequencer :: rest → s.seqEnabled = true → t.seqStepsLeft < s.seqStepsLeft) ∧
    ((∃ tr i rest, s.agenda = .host tr :: rest ∧ decode tr = .ok i ∧ commandCode i = some 1 ∧ s.phase = .idle) ∨
      t.seqStepsLeft ≤ s.seqStepsLeft) ∧
    (s.seqStepsLeft = 0 ↔ s.phase = .idle) ∧ s.seqStepsLeft ≤ 50

/-- R214, R252: no result leaves KUW stuck. A run in progress always has an enabled step of the sequencer or of the engine; and under the premises SEQ_FAIR
and ENGINE_LIVE it ends, in whatever interleaving, within the sequencer steps that `seqStepsLeft` counts: 2 + 2*6N from VALIDATE. -/
def Obligations.RunIsNeverStuck : Prop :=
  (∀ s : State, Inv s → s.phase ≠ .idle → s.seqEnabled = true ∨ s.acceptEnabled = true ∨ s.answerEnabled = true) ∧
  (∀ (e : Nat → Event) (σ : Nat → State), RunOf e σ → Inv (σ 0) → SeqFair e σ → EngineLive e σ →
    ∀ k, (σ k).phase ≠ .idle →
      ∃ n, (σ (k + n)).phase = .idle ∧ (∀ m, m < n → (σ (k + m)).phase ≠ .idle) ∧
        seqStepsTaken e σ k n ≤ (σ k).seqStepsLeft ∧
        ((σ k).phase = .validate → seqStepsTaken e σ k n ≤ 2 + 2 * (6 * (semiblockCount (σ k).keybits).toNat)))

/-- What a host can see does not depend on A, WIN, the engine or a key not yet released: two states equal in the rest stay so under every host
instruction, and answer the same reads (10_state.md R22, R23, R48, R49; 41_unwrap_sequencer.md R166). -/
def Obligations.HostSeesNoSecret : Prop :=
  ∀ (i : Instr) (s t : State), HostEqual s t →
    ∃ s' t', exec i s = .next s' ∧ exec i t = .next t' ∧ HostEqual s' t'

/-- R162: the end of a run depends only on KEYBITS, WLEN, the input bytes of WIN and the engine's responses: two states equal in those and in the run's
working state, taking the same step of the sequencer or of the engine, stay so. -/
def Obligations.RunDependsOnlyOnItsInputs : Prop :=
  ∀ (s t s' t' : State) (e : Event) (rest rest' : List Event), RunEqual s t →
    s.agenda = e :: rest → t.agenda = e :: rest' → (∀ tr, e ≠ .host tr) → step s = .next s' → step t = .next t' →
    RunEqual s' t'

/-- R148, R153: in every state of the invariant R[I] is a semiblock of the run, so ISSUE cannot fail, and RESPOND completes on every response and leaves
nothing outstanding. -/
def Obligations.IssueAndRespondComplete : Prop :=
  ∀ (s : State) (rest : List Event), Inv s → s.agenda = .sequencer :: rest →
    (s.phase = .issue → ∃ t x, 1 ≤ s.i.toNat ∧ s.i.toNat ≤ s.n.toNat ∧ s.r[s.i.toNat - 1]? = some x ∧ step s = .next t ∧
      t.phase = .wait ∧ t.req = some ⟨t.a ++ x, s.kekHandle, s.algId⟩ ∧ t.outstanding = 1) ∧
    (∀ rsp, s.phase = .wait → s.engine.response = some rsp →
      ∃ t, step s = .next t ∧ t.outstanding = 0 ∧ (t.phase = .idle ∨ t.phase = .issue ∨ t.phase = .final))

/-- R53, R210, R181, R185: the outputs: irq is the level INTEN & EVENT_DONE; the request ports are valid while REQ is full and carry its fields, and carry 0
while it is empty; eng_rsp_ready is 1 exactly in WAIT. -/
def Obligations.OutputPorts : Prop :=
  ∀ s : State,
    (s.irq = true ↔ s.inten = true ∧ s.eventDone = true) ∧
    (∀ q, s.req = some q → s.engReqValid = true ∧ s.engReqPorts = q) ∧
    (s.req = none → s.engReqValid = false ∧ s.engReqPorts = ⟨0, 0, 0⟩) ∧
    (s.engRspReady = true ↔ s.phase = .wait)
end

