-- ==== Sys2Proof/Laws/Decode.lean ====
section
/-! SUPPORT. What the decoder answers: the register map by offset (30_encoding.md R82), the accesses it refuses, the command codes. -/

namespace Sys2Proof

theorem Offset.index_eq (off : Offset) : Offset.index off = off.toNat / 4 := by
  simp only [Offset.index, BitVec.extractLsb'_toNat, Nat.shiftRight_eq_div_pow]
  have := off.isLt
  omega

theorem Offset.aligned_iff (off : Offset) : Offset.aligned off = true ↔ off.toNat % 4 = 0 := by
  simp [Offset.aligned, ← BitVec.toNat_inj, BitVec.extractLsb'_toNat]

/-- An access is checked exactly by its size and its alignment (20_memory.md R61). -/
theorem checkAccess_ok_iff (off : Offset) (size : Nat) : checkAccess off size = .ok () ↔ size = 32 ∧ off.toNat % 4 = 0 := by
  rw [checkAccess, ← Offset.aligned_iff]
  by_cases h : size = 32 <;> by_cases h' : Offset.aligned off = true <;> simp [Config.accessBits, h, h']

theorem regOfIndex_win (w : Fin 10) : regOfIndex (0x010 + w.val) = .win w := by
  revert w; decide

theorem regOfIndex_keyout (w : Fin 8) : regOfIndex (0x020 + w.val) = .keyout w := by
  revert w; decide

/-- The indices that select no register: the gaps of 20_memory.md R71. -/
theorem regOfIndex_reserved (k : Nat) :
    regOfIndex k = .reserved ↔ (6 ≤ k ∧ k ≤ 7) ∨ (0x00C ≤ k ∧ k ≤ 0x00F) ∨ (0x01A ≤ k ∧ k ≤ 0x01F) ∨ 0x028 ≤ k := by
  by_cases hk : k < 0x028
  · interval_cases k <;> decide
  · have h1 : ¬ (0x010 ≤ k ∧ k ≤ 0x019) := by omega
    have h2 : ¬ (0x020 ≤ k ∧ k ≤ 0x027) := by omega
    simp only [regOfIndex, h1, h2, dite_false]
    constructor
    · intro; omega
    · intro
      split <;> first | omega | rfl

/-- The reserved offsets as R71 lists them are the aligned ones that select no register. -/
theorem reservedOffset_iff (off : Offset) :
    reservedOffset off = true ↔ off.toNat % 4 = 0 ∧ regOfIndex (Offset.index off) = .reserved := by
  have := off.isLt
  rw [regOfIndex_reserved, Offset.index_eq]
  simp only [reservedOffset, Bool.and_eq_true, Bool.or_eq_true, beq_iff_eq, decide_eq_true_eq]
  omega

/-- Which indices select which register, the other way: the offset of a register is the one of 10_state.md R40. -/
theorem index_of_reg (k : Nat) :
    match regOfIndex k with
    | .ctrl => k = 0x000
    | .status => k = 0x001
    | .detail => k = 0x002
    | .progress => k = 0x003
    | .inten => k = 0x004
    | .eventDone => k = 0x005
    | .kekHandle => k = 0x008
    | .algId => k = 0x009
    | .keybits => k = 0x00A
    | .wlen => k = 0x00B
    | .win w => k = 0x010 + w.val
    | .keyout w => k = 0x020 + w.val
    | .reserved => True := by
  by_cases hk : k < 0x028
  · interval_cases k <;> trivial
  · rw [(regOfIndex_reserved k).mpr (by omega)]
    trivial

/-- What the decoder answers on a read: in the format, the register's read. -/
theorem decode_read_ok_iff (off : Offset) (size : Nat) (i : Instr) :
    decode (.read off size) = .ok i ↔ (size = 32 ∧ off.toNat % 4 = 0) ∧ i = decodeRead off := by
  rw [← checkAccess_ok_iff]
  cases h : checkAccess off size <;> simp [decode, h, eq_comm]

/-- What the decoder answers on a write: in the format, the register's write. -/
theorem decode_write_ok_iff (off : Offset) (size : Nat) (d : Word) (i : Instr) :
    decode (.write off size d) = .ok i ↔ (size = 32 ∧ off.toNat % 4 = 0) ∧ i = decodeWrite off d := by
  rw [← checkAccess_ok_iff]
  cases h : checkAccess off size <;> simp [decode, h, eq_comm]

theorem decode_command_ok_iff (w : Word) (i : Instr) : decode (.command w) = .ok i ↔ i = decodeCommand w := by
  simp [decode, eq_comm]

/-- A transaction decodes exactly when it is in the format (30_encoding.md R81). -/
theorem decode_isOk_iff (tr : Transaction) : (∃ i, decode tr = .ok i) ↔ tr.inFormat = true := by
  cases tr with
  | read off size => simp [decode_read_ok_iff, Transaction.inFormat]
  | write off size d => simp [decode_write_ok_iff, Transaction.inFormat]
  | command w => simp [decode_command_ok_iff, Transaction.inFormat]

end Sys2Proof
end

