-- ==== Sys2Proof/Laws/Operands.lean ====
section
/-! SUPPORT. The operand forms say what their rules say: byte order and lanes (00_scope.md R11, 20_memory.md R62 to R66), the XOR of the round
counter (41_unwrap_sequencer.md R151), the store into WIN (30_encoding.md R89). -/

namespace Sys2Proof.Machine

/-- `byte_k(be64(b)) = b[k]` (R11). -/
theorem byteOf_be64 (b : Fin 8 → Byte) (k : Fin 8) :
    byteOf k (be64 (b 0) (b 1) (b 2) (b 3) (b 4) (b 5) (b 6) (b 7)) = b k := by
  fin_cases k <;>
  · ext m hm
    simp only [byteOf, be64, BitVec.getElem_extractLsb', BitVec.getLsbD_append]
    interval_cases m <;> rfl

/-- Data bits [8m+7 : 8m] of the word made of lanes are lane m (R63). -/
theorem lane_laneWord (b : Fin 4 → Byte) (m : Fin 4) : lane m (laneWord (b 0) (b 1) (b 2) (b 3)) = b m := by
  fin_cases m <;>
  · ext k hk
    simp only [lane, laneWord, BitVec.getElem_extractLsb', BitVec.getLsbD_append]
    interval_cases k <;> rfl

/-- The halves of `A || R[I]` (20_memory.md R66). -/
@[simp] theorem blockHigh_joinBlock (a r : Semiblock) : blockHigh (joinBlock a r) = a := by
  ext m hm
  simp only [blockHigh, joinBlock, BitVec.getElem_extractLsb', BitVec.getLsbD_append]
  have : ¬ 64 + m < 64 := by omega
  simp [this, hm]

@[simp] theorem blockLow_joinBlock (a r : Semiblock) : blockLow (joinBlock a r) = r := by
  ext m hm
  simp only [blockLow, joinBlock, BitVec.getElem_extractLsb', BitVec.getLsbD_append]
  simp [hm]

/-- The XOR into the low-order byte is the XOR with the 64-bit counter (R151). -/
theorem xorLowByte_eq (a : Semiblock) (t : BitVec 8) : xorLowByte a t = a ^^^ t.setWidth 64 := by
  apply BitVec.eq_of_getLsbD_eq
  intro m hm
  simp only [xorLowByte, BitVec.getLsbD_append, BitVec.getLsbD_xor, BitVec.getLsbD_extractLsb', BitVec.getLsbD_setWidth]
  by_cases h : m < 8
  · simp [h, hm]
  · have ht : t.getLsbD m = false := BitVec.getLsbD_of_ge t m (by omega)
    have e : 8 + (m - 8) = m := by omega
    have hm' : m - 8 < 56 := by omega
    simp [h, ht, e, hm']

/-- The four bytes a store of a word into WIN writes (R62). -/
theorem storeWinWord_lane (win : Vector Byte 40) (w : Fin 10) (d : Word) (m : Nat) (hm : m < 4) :
    (storeWinWord win w d)[4 * w.val + m]? = some (lane m d) := by
  have := w.isLt
  rw [Vector.getElem?_eq_getElem (by omega)]
  interval_cases m <;> simp [storeWinWord]

/-- Every other byte of WIN is kept. -/
theorem storeWinWord_frame (win : Vector Byte 40) (w : Fin 10) (d : Word) (k : Nat)
    (hk : k < 4 * w.val ∨ 4 * w.val + 4 ≤ k) : (storeWinWord win w d)[k]? = win[k]? := by
  have := w.isLt
  by_cases h : k < 40
  · rw [Vector.getElem?_eq_getElem h, Vector.getElem?_eq_getElem h]
    have h0 : 4 * w.val ≠ k := by omega
    have h1 : 4 * w.val + 1 ≠ k := by omega
    have h2 : 4 * w.val + 2 ≠ k := by omega
    have h3 : 4 * w.val + 3 ≠ k := by omega
    simp [storeWinWord, h0, h1, h2, h3]
  · rw [Vector.getElem?_eq_none (by omega), Vector.getElem?_eq_none (by omega)]

/-- A response is good exactly when err = 0 and len = 16 (41_unwrap_sequencer.md R154). -/
theorem EngResponse.good_iff (rsp : EngResponse) : rsp.good = true ↔ rsp.err = false ∧ rsp.len = 16 := by
  simp [EngResponse.good, Config.blockBytes]

theorem semiblockCount_toNat (kb : Word) : (semiblockCount kb).toNat = kb.toNat / 64 := by
  simp only [semiblockCount, BitVec.extractLsb'_toNat, Nat.shiftRight_eq_div_pow]
  have := kb.isLt
  omega

end Sys2Proof.Machine
end

