-- ==== Sys2Proof/Laws/PerInstr.lean ====
section
/-! SUPPORT. Per instruction: the encoding of a well-formed instruction is a transaction in the format of 30_encoding.md R81, so that
the decoder refuses none of them. -/

namespace Sys2Proof.Laws.InFormat

/-- The encoding of the instruction is in the BUS or the CTRL_CMD format. -/
def Statement (i : Instr) : Prop := i.WellFormed → (encode i).inFormat = true

theorem nop : Statement .nop := fun _ => rfl

theorem start : Statement .start := fun _ => rfl

theorem clear : Statement .clear := fun _ => rfl

theorem reservedCmd (cmd : BitVec 4) : Statement (.reservedCmd cmd) := fun _ => rfl

theorem wrCtrl (wdata : Word) : Statement (.wrCtrl wdata) := fun _ => rfl

theorem wrRoStatus (wdata : Word) : Statement (.wrRoStatus wdata) := fun _ => rfl

theorem wrRoDetail (wdata : Word) : Statement (.wrRoDetail wdata) := fun _ => rfl

theorem wrRoProgress (wdata : Word) : Statement (.wrRoProgress wdata) := fun _ => rfl

theorem wrInten (wdata : Word) : Statement (.wrInten wdata) := fun _ => rfl

theorem wrEventDone (wdata : Word) : Statement (.wrEventDone wdata) := fun _ => rfl

theorem wrKekHandle (wdata : Word) : Statement (.wrKekHandle wdata) := fun _ => rfl

theorem wrAlgId (wdata : Word) : Statement (.wrAlgId wdata) := fun _ => rfl

theorem wrKeybits (wdata : Word) : Statement (.wrKeybits wdata) := fun _ => rfl

theorem wrWlen (wdata : Word) : Statement (.wrWlen wdata) := fun _ => rfl

theorem wrWin (w : Fin 10) (wdata : Word) : Statement (.wrWin w wdata) := fun _ => by
  have h : ∀ w : Fin 10, (wordOffset 0x040 w).toNat % 4 = 0 := by decide
  simp [encode, Transaction.inFormat, h w]

theorem wrRoKeyout (w : Fin 8) (wdata : Word) : Statement (.wrRoKeyout w wdata) := fun _ => by
  have h : ∀ w : Fin 8, (wordOffset 0x080 w).toNat % 4 = 0 := by decide
  simp [encode, Transaction.inFormat, h w]

theorem wrReserved (off : Offset) (wdata : Word) : Statement (.wrReserved off wdata) := fun h => by
  have h' := ((reservedOffset_iff off).mp h).1
  simp [encode, Transaction.inFormat, h']

theorem rdCtrl : Statement .rdCtrl := fun _ => rfl

theorem rdStatus : Statement .rdStatus := fun _ => rfl

theorem rdDetail : Statement .rdDetail := fun _ => rfl

theorem rdProgress : Statement .rdProgress := fun _ => rfl

theorem rdInten : Statement .rdInten := fun _ => rfl

theorem rdEventDone : Statement .rdEventDone := fun _ => rfl

theorem rdKekHandle : Statement .rdKekHandle := fun _ => rfl

theorem rdAlgId : Statement .rdAlgId := fun _ => rfl

theorem rdKeybits : Statement .rdKeybits := fun _ => rfl

theorem rdWlen : Statement .rdWlen := fun _ => rfl

theorem rdWin (w : Fin 10) : Statement (.rdWin w) := fun _ => by
  have h : ∀ w : Fin 10, (wordOffset 0x040 w).toNat % 4 = 0 := by decide
  simp [encode, Transaction.inFormat, h w]

theorem rdKeyout (w : Fin 8) : Statement (.rdKeyout w) := fun _ => by
  have h : ∀ w : Fin 8, (wordOffset 0x080 w).toNat % 4 = 0 := by decide
  simp [encode, Transaction.inFormat, h w]

theorem rdReserved (off : Offset) : Statement (.rdReserved off) := fun h => by
  have h' := ((reservedOffset_iff off).mp h).1
  simp [encode, Transaction.inFormat, h']

end Sys2Proof.Laws.InFormat
end

