-- ==== Sys2Proof/Laws/State.lean ====
section
/-! SUPPORT. The state after each named update, field by field, so that no later proof unfolds a record update. -/

namespace Sys2Proof.Machine

/-! ### answerRead -/

@[simp] theorem State.answerRead_phase (s : State) (v : Word) : (s.answerRead v).phase = s.phase := rfl
@[simp] theorem State.answerRead_a (s : State) (v : Word) : (s.answerRead v).a = s.a := rfl
@[simp] theorem State.answerRead_r (s : State) (v : Word) : (s.answerRead v).r = s.r := rfl
@[simp] theorem State.answerRead_n (s : State) (v : Word) : (s.answerRead v).n = s.n := rfl
@[simp] theorem State.answerRead_j (s : State) (v : Word) : (s.answerRead v).j = s.j := rfl
@[simp] theorem State.answerRead_i (s : State) (v : Word) : (s.answerRead v).i = s.i := rfl
@[simp] theorem State.answerRead_t (s : State) (v : Word) : (s.answerRead v).t = s.t := rfl
@[simp] theorem State.answerRead_calls (s : State) (v : Word) : (s.answerRead v).calls = s.calls := rfl
@[simp] theorem State.answerRead_result (s : State) (v : Word) : (s.answerRead v).result = s.result := rfl
@[simp] theorem State.answerRead_detail (s : State) (v : Word) : (s.answerRead v).detail = s.detail := rfl
@[simp] theorem State.answerRead_ignored (s : State) (v : Word) : (s.answerRead v).ignored = s.ignored := rfl
@[simp] theorem State.answerRead_eventDone (s : State) (v : Word) : (s.answerRead v).eventDone = s.eventDone := rfl
@[simp] theorem State.answerRead_inten (s : State) (v : Word) : (s.answerRead v).inten = s.inten := rfl
@[simp] theorem State.answerRead_kekHandle (s : State) (v : Word) : (s.answerRead v).kekHandle = s.kekHandle := rfl
@[simp] theorem State.answerRead_algId (s : State) (v : Word) : (s.answerRead v).algId = s.algId := rfl
@[simp] theorem State.answerRead_keybits (s : State) (v : Word) : (s.answerRead v).keybits = s.keybits := rfl
@[simp] theorem State.answerRead_wlen (s : State) (v : Word) : (s.answerRead v).wlen = s.wlen := rfl
@[simp] theorem State.answerRead_win (s : State) (v : Word) : (s.answerRead v).win = s.win := rfl
@[simp] theorem State.answerRead_req (s : State) (v : Word) : (s.answerRead v).req = s.req := rfl
@[simp] theorem State.answerRead_engine (s : State) (v : Word) : (s.answerRead v).engine = s.engine := rfl
@[simp] theorem State.answerRead_reads (s : State) (v : Word) : (s.answerRead v).reads = v :: s.reads := rfl
@[simp] theorem State.answerRead_agenda (s : State) (v : Word) : (s.answerRead v).agenda = s.agenda := rfl

/-! ### markIgnored -/

@[simp] theorem State.markIgnored_phase (s : State) : (s.markIgnored).phase = s.phase := rfl
@[simp] theorem State.markIgnored_a (s : State) : (s.markIgnored).a = s.a := rfl
@[simp] theorem State.markIgnored_r (s : State) : (s.markIgnored).r = s.r := rfl
@[simp] theorem State.markIgnored_n (s : State) : (s.markIgnored).n = s.n := rfl
@[simp] theorem State.markIgnored_j (s : State) : (s.markIgnored).j = s.j := rfl
@[simp] theorem State.markIgnored_i (s : State) : (s.markIgnored).i = s.i := rfl
@[simp] theorem State.markIgnored_t (s : State) : (s.markIgnored).t = s.t := rfl
@[simp] theorem State.markIgnored_calls (s : State) : (s.markIgnored).calls = s.calls := rfl
@[simp] theorem State.markIgnored_result (s : State) : (s.markIgnored).result = s.result := rfl
@[simp] theorem State.markIgnored_detail (s : State) : (s.markIgnored).detail = s.detail := rfl
@[simp] theorem State.markIgnored_ignored (s : State) : (s.markIgnored).ignored = true := rfl
@[simp] theorem State.markIgnored_eventDone (s : State) : (s.markIgnored).eventDone = s.eventDone := rfl
@[simp] theorem State.markIgnored_inten (s : State) : (s.markIgnored).inten = s.inten := rfl
@[simp] theorem State.markIgnored_kekHandle (s : State) : (s.markIgnored).kekHandle = s.kekHandle := rfl
@[simp] theorem State.markIgnored_algId (s : State) : (s.markIgnored).algId = s.algId := rfl
@[simp] theorem State.markIgnored_keybits (s : State) : (s.markIgnored).keybits = s.keybits := rfl
@[simp] theorem State.markIgnored_wlen (s : State) : (s.markIgnored).wlen = s.wlen := rfl
@[simp] theorem State.markIgnored_win (s : State) : (s.markIgnored).win = s.win := rfl
@[simp] theorem State.markIgnored_req (s : State) : (s.markIgnored).req = s.req := rfl
@[simp] theorem State.markIgnored_engine (s : State) : (s.markIgnored).engine = s.engine := rfl
@[simp] theorem State.markIgnored_reads (s : State) : (s.markIgnored).reads = s.reads := rfl
@[simp] theorem State.markIgnored_agenda (s : State) : (s.markIgnored).agenda = s.agenda := rfl

/-! ### wipe -/

@[simp] theorem State.wipe_phase (s : State) : (s.wipe).phase = s.phase := rfl
@[simp] theorem State.wipe_a (s : State) : (s.wipe).a = 0 := rfl
@[simp] theorem State.wipe_r (s : State) : (s.wipe).r = Vector.replicate 4 0 := rfl
@[simp] theorem State.wipe_n (s : State) : (s.wipe).n = 0 := rfl
@[simp] theorem State.wipe_j (s : State) : (s.wipe).j = 0 := rfl
@[simp] theorem State.wipe_i (s : State) : (s.wipe).i = 0 := rfl
@[simp] theorem State.wipe_t (s : State) : (s.wipe).t = 0 := rfl
@[simp] theorem State.wipe_calls (s : State) : (s.wipe).calls = 0 := rfl
@[simp] theorem State.wipe_result (s : State) : (s.wipe).result = .none := rfl
@[simp] theorem State.wipe_detail (s : State) : (s.wipe).detail = 0 := rfl
@[simp] theorem State.wipe_ignored (s : State) : (s.wipe).ignored = false := rfl
@[simp] theorem State.wipe_eventDone (s : State) : (s.wipe).eventDone = false := rfl
@[simp] theorem State.wipe_inten (s : State) : (s.wipe).inten = s.inten := rfl
@[simp] theorem State.wipe_kekHandle (s : State) : (s.wipe).kekHandle = s.kekHandle := rfl
@[simp] theorem State.wipe_algId (s : State) : (s.wipe).algId = s.algId := rfl
@[simp] theorem State.wipe_keybits (s : State) : (s.wipe).keybits = s.keybits := rfl
@[simp] theorem State.wipe_wlen (s : State) : (s.wipe).wlen = s.wlen := rfl
@[simp] theorem State.wipe_win (s : State) : (s.wipe).win = s.win := rfl
@[simp] theorem State.wipe_req (s : State) : (s.wipe).req = s.req := rfl
@[simp] theorem State.wipe_engine (s : State) : (s.wipe).engine = s.engine := rfl
@[simp] theorem State.wipe_reads (s : State) : (s.wipe).reads = s.reads := rfl
@[simp] theorem State.wipe_agenda (s : State) : (s.wipe).agenda = s.agenda := rfl

/-! ### takeReset -/

@[simp] theorem State.takeReset_phase (s : State) : (s.takeReset).phase = State.reset.phase := rfl
@[simp] theorem State.takeReset_a (s : State) : (s.takeReset).a = State.reset.a := rfl
@[simp] theorem State.takeReset_r (s : State) : (s.takeReset).r = State.reset.r := rfl
@[simp] theorem State.takeReset_n (s : State) : (s.takeReset).n = State.reset.n := rfl
@[simp] theorem State.takeReset_j (s : State) : (s.takeReset).j = State.reset.j := rfl
@[simp] theorem State.takeReset_i (s : State) : (s.takeReset).i = State.reset.i := rfl
@[simp] theorem State.takeReset_t (s : State) : (s.takeReset).t = State.reset.t := rfl
@[simp] theorem State.takeReset_calls (s : State) : (s.takeReset).calls = State.reset.calls := rfl
@[simp] theorem State.takeReset_result (s : State) : (s.takeReset).result = State.reset.result := rfl
@[simp] theorem State.takeReset_detail (s : State) : (s.takeReset).detail = State.reset.detail := rfl
@[simp] theorem State.takeReset_ignored (s : State) : (s.takeReset).ignored = State.reset.ignored := rfl
@[simp] theorem State.takeReset_eventDone (s : State) : (s.takeReset).eventDone = State.reset.eventDone := rfl
@[simp] theorem State.takeReset_inten (s : State) : (s.takeReset).inten = State.reset.inten := rfl
@[simp] theorem State.takeReset_kekHandle (s : State) : (s.takeReset).kekHandle = State.reset.kekHandle := rfl
@[simp] theorem State.takeReset_algId (s : State) : (s.takeReset).algId = State.reset.algId := rfl
@[simp] theorem State.takeReset_keybits (s : State) : (s.takeReset).keybits = State.reset.keybits := rfl
@[simp] theorem State.takeReset_wlen (s : State) : (s.takeReset).wlen = State.reset.wlen := rfl
@[simp] theorem State.takeReset_win (s : State) : (s.takeReset).win = State.reset.win := rfl
@[simp] theorem State.takeReset_req (s : State) : (s.takeReset).req = State.reset.req := rfl
@[simp] theorem State.takeReset_engine (s : State) : (s.takeReset).engine = State.reset.engine := rfl
@[simp] theorem State.takeReset_reads (s : State) : (s.takeReset).reads = s.reads := rfl
@[simp] theorem State.takeReset_agenda (s : State) : (s.takeReset).agenda = s.agenda := rfl

/-! ### terminate (41_unwrap_sequencer.md R165) -/

@[simp] theorem State.terminate_phase (s : State) (code : ResultCode) : (s.terminate code).phase = .idle := by
  by_cases h : code = .ok <;> simp [State.terminate, h]
@[simp] theorem State.terminate_a (s : State) (code : ResultCode) : (s.terminate code).a = if code = .ok then s.a else 0 := by
  by_cases h : code = .ok <;> simp [State.terminate, h]
@[simp] theorem State.terminate_r (s : State) (code : ResultCode) : (s.terminate code).r = if code = .ok then s.r else Vector.replicate 4 0 := by
  by_cases h : code = .ok <;> simp [State.terminate, h]
@[simp] theorem State.terminate_n (s : State) (code : ResultCode) : (s.terminate code).n = s.n := by
  by_cases h : code = .ok <;> simp [State.terminate, h]
@[simp] theorem State.terminate_j (s : State) (code : ResultCode) : (s.terminate code).j = s.j := by
  by_cases h : code = .ok <;> simp [State.terminate, h]
@[simp] theorem State.terminate_i (s : State) (code : ResultCode) : (s.terminate code).i = s.i := by
  by_cases h : code = .ok <;> simp [State.terminate, h]
@[simp] theorem State.terminate_t (s : State) (code : ResultCode) : (s.terminate code).t = s.t := by
  by_cases h : code = .ok <;> simp [State.terminate, h]
@[simp] theorem State.terminate_calls (s : State) (code : ResultCode) : (s.terminate code).calls = s.calls := by
  by_cases h : code = .ok <;> simp [State.terminate, h]
@[simp] theorem State.terminate_result (s : State) (code : ResultCode) : (s.terminate code).result = code := by
  by_cases h : code = .ok <;> simp [State.terminate, h]
@[simp] theorem State.terminate_detail (s : State) (code : ResultCode) : (s.terminate code).detail = s.detail := by
  by_cases h : code = .ok <;> simp [State.terminate, h]
@[simp] theorem State.terminate_ignored (s : State) (code : ResultCode) : (s.terminate code).ignored = s.ignored := by
  by_cases h : code = .ok <;> simp [State.terminate, h]
@[simp] theorem State.terminate_eventDone (s : State) (code : ResultCode) : (s.terminate code).eventDone = true := by
  by_cases h : code = .ok <;> simp [State.terminate, h]
@[simp] theorem State.terminate_inten (s : State) (code : ResultCode) : (s.terminate code).inten = s.inten := by
  by_cases h : code = .ok <;> simp [State.terminate, h]
@[simp] theorem State.terminate_kekHandle (s : State) (code : ResultCode) : (s.terminate code).kekHandle = s.kekHandle := by
  by_cases h : code = .ok <;> simp [State.terminate, h]
@[simp] theorem State.terminate_algId (s : State) (code : ResultCode) : (s.terminate code).algId = s.algId := by
  by_cases h : code = .ok <;> simp [State.terminate, h]
@[simp] theorem State.terminate_keybits (s : State) (code : ResultCode) : (s.terminate code).keybits = s.keybits := by
  by_cases h : code = .ok <;> simp [State.terminate, h]
@[simp] theorem State.terminate_wlen (s : State) (code : ResultCode) : (s.terminate code).wlen = s.wlen := by
  by_cases h : code = .ok <;> simp [State.terminate, h]
@[simp] theorem State.terminate_win (s : State) (code : ResultCode) : (s.terminate code).win = s.win := by
  by_cases h : code = .ok <;> simp [State.terminate, h]
@[simp] theorem State.terminate_req (s : State) (code : ResultCode) : (s.terminate code).req = s.req := by
  by_cases h : code = .ok <;> simp [State.terminate, h]
@[simp] theorem State.terminate_engine (s : State) (code : ResultCode) : (s.terminate code).engine = s.engine := by
  by_cases h : code = .ok <;> simp [State.terminate, h]
@[simp] theorem State.terminate_reads (s : State) (code : ResultCode) : (s.terminate code).reads = s.reads := by
  by_cases h : code = .ok <;> simp [State.terminate, h]
@[simp] theorem State.terminate_agenda (s : State) (code : ResultCode) : (s.terminate code).agenda = s.agenda := by
  by_cases h : code = .ok <;> simp [State.terminate, h]

/-! ### setSemiblock -/

@[simp] theorem State.setSemiblock_phase (s : State) (k : Nat) (v : Semiblock) : (s.setSemiblock k v).phase = s.phase := by
  cases k <;> rfl
@[simp] theorem State.setSemiblock_a (s : State) (k : Nat) (v : Semiblock) : (s.setSemiblock k v).a = s.a := by
  cases k <;> rfl
@[simp] theorem State.setSemiblock_n (s : State) (k : Nat) (v : Semiblock) : (s.setSemiblock k v).n = s.n := by
  cases k <;> rfl
@[simp] theorem State.setSemiblock_j (s : State) (k : Nat) (v : Semiblock) : (s.setSemiblock k v).j = s.j := by
  cases k <;> rfl
@[simp] theorem State.setSemiblock_i (s : State) (k : Nat) (v : Semiblock) : (s.setSemiblock k v).i = s.i := by
  cases k <;> rfl
@[simp] theorem State.setSemiblock_t (s : State) (k : Nat) (v : Semiblock) : (s.setSemiblock k v).t = s.t := by
  cases k <;> rfl
@[simp] theorem State.setSemiblock_calls (s : State) (k : Nat) (v : Semiblock) : (s.setSemiblock k v).calls = s.calls := by
  cases k <;> rfl
@[simp] theorem State.setSemiblock_result (s : State) (k : Nat) (v : Semiblock) : (s.setSemiblock k v).result = s.result := by
  cases k <;> rfl
@[simp] theorem State.setSemiblock_detail (s : State) (k : Nat) (v : Semiblock) : (s.setSemiblock k v).detail = s.detail := by
  cases k <;> rfl
@[simp] theorem State.setSemiblock_ignored (s : State) (k : Nat) (v : Semiblock) : (s.setSemiblock k v).ignored = s.ignored := by
  cases k <;> rfl
@[simp] theorem State.setSemiblock_eventDone (s : State) (k : Nat) (v : Semiblock) : (s.setSemiblock k v).eventDone = s.eventDone := by
  cases k <;> rfl
@[simp] theorem State.setSemiblock_inten (s : State) (k : Nat) (v : Semiblock) : (s.setSemiblock k v).inten = s.inten := by
  cases k <;> rfl
@[simp] theorem State.setSemiblock_kekHandle (s : State) (k : Nat) (v : Semiblock) : (s.setSemiblock k v).kekHandle = s.kekHandle := by
  cases k <;> rfl
@[simp] theorem State.setSemiblock_algId (s : State) (k : Nat) (v : Semiblock) : (s.setSemiblock k v).algId = s.algId := by
  cases k <;> rfl
@[simp] theorem State.setSemiblock_keybits (s : State) (k : Nat) (v : Semiblock) : (s.setSemiblock k v).keybits = s.keybits := by
  cases k <;> rfl
@[simp] theorem State.setSemiblock_wlen (s : State) (k : Nat) (v : Semiblock) : (s.setSemiblock k v).wlen = s.wlen := by
  cases k <;> rfl
@[simp] theorem State.setSemiblock_win (s : State) (k : Nat) (v : Semiblock) : (s.setSemiblock k v).win = s.win := by
  cases k <;> rfl
@[simp] theorem State.setSemiblock_req (s : State) (k : Nat) (v : Semiblock) : (s.setSemiblock k v).req = s.req := by
  cases k <;> rfl
@[simp] theorem State.setSemiblock_engine (s : State) (k : Nat) (v : Semiblock) : (s.setSemiblock k v).engine = s.engine := by
  cases k <;> rfl
@[simp] theorem State.setSemiblock_reads (s : State) (k : Nat) (v : Semiblock) : (s.setSemiblock k v).reads = s.reads := by
  cases k <;> rfl
@[simp] theorem State.setSemiblock_agenda (s : State) (k : Nat) (v : Semiblock) : (s.setSemiblock k v).agenda = s.agenda := by
  cases k <;> rfl

theorem State.setSemiblock_r (s : State) (k : Nat) (v : Semiblock) (hk : 1 ≤ k) :
    (s.setSemiblock k v).r = s.r.setIfInBounds (k - 1) v := by
  cases k with
  | zero => omega
  | succ k => rfl

theorem State.semiblock_eq (s : State) (k : Nat) (hk : 1 ≤ k) : s.semiblock k = s.r[k - 1]? := by
  cases k with
  | zero => omega
  | succ k => rfl

/-- R[k] exists exactly for k = 1..4 (10_state.md R23). -/
theorem State.semiblock_isSome (s : State) (k : Nat) : (s.semiblock k).isSome = decide (1 ≤ k ∧ k ≤ 4) := by
  cases k with
  | zero => simp [State.semiblock]
  | succ k => by_cases h : k < 4 <;> simp [State.semiblock, h]

/-! ### advance (41_unwrap_sequencer.md R156) -/

theorem State.advance_phase (s : State) : s.advance.phase = if 1 < s.i.toNat ∨ 0 < s.j.toNat then .issue else .final := by
  by_cases h : 1 < s.i.toNat <;> by_cases h' : 0 < s.j.toNat <;> simp [State.advance, h, h']
@[simp] theorem State.advance_a (s : State) : s.advance.a = s.a := by
  by_cases h : 1 < s.i.toNat <;> by_cases h' : 0 < s.j.toNat <;> simp [State.advance, h, h']
@[simp] theorem State.advance_r (s : State) : s.advance.r = s.r := by
  by_cases h : 1 < s.i.toNat <;> by_cases h' : 0 < s.j.toNat <;> simp [State.advance, h, h']
@[simp] theorem State.advance_n (s : State) : s.advance.n = s.n := by
  by_cases h : 1 < s.i.toNat <;> by_cases h' : 0 < s.j.toNat <;> simp [State.advance, h, h']
theorem State.advance_j (s : State) : s.advance.j = if 1 < s.i.toNat then s.j else if 0 < s.j.toNat then s.j - 1 else s.j := by
  by_cases h : 1 < s.i.toNat <;> by_cases h' : 0 < s.j.toNat <;> simp [State.advance, h, h']
theorem State.advance_i (s : State) : s.advance.i = if 1 < s.i.toNat then s.i - 1 else if 0 < s.j.toNat then s.n else s.i := by
  by_cases h : 1 < s.i.toNat <;> by_cases h' : 0 < s.j.toNat <;> simp [State.advance, h, h']
@[simp] theorem State.advance_t (s : State) : s.advance.t = s.t := by
  by_cases h : 1 < s.i.toNat <;> by_cases h' : 0 < s.j.toNat <;> simp [State.advance, h, h']
@[simp] theorem State.advance_calls (s : State) : s.advance.calls = s.calls := by
  by_cases h : 1 < s.i.toNat <;> by_cases h' : 0 < s.j.toNat <;> simp [State.advance, h, h']
@[simp] theorem State.advance_result (s : State) : s.advance.result = s.result := by
  by_cases h : 1 < s.i.toNat <;> by_cases h' : 0 < s.j.toNat <;> simp [State.advance, h, h']
@[simp] theorem State.advance_detail (s : State) : s.advance.detail = s.detail := by
  by_cases h : 1 < s.i.toNat <;> by_cases h' : 0 < s.j.toNat <;> simp [State.advance, h, h']
@[simp] theorem State.advance_ignored (s : State) : s.advance.ignored = s.ignored := by
  by_cases h : 1 < s.i.toNat <;> by_cases h' : 0 < s.j.toNat <;> simp [State.advance, h, h']
@[simp] theorem State.advance_eventDone (s : State) : s.advance.eventDone = s.eventDone := by
  by_cases h : 1 < s.i.toNat <;> by_cases h' : 0 < s.j.toNat <;> simp [State.advance, h, h']
@[simp] theorem State.advance_inten (s : State) : s.advance.inten = s.inten := by
  by_cases h : 1 < s.i.toNat <;> by_cases h' : 0 < s.j.toNat <;> simp [State.advance, h, h']
@[simp] theorem State.advance_kekHandle (s : State) : s.advance.kekHandle = s.kekHandle := by
  by_cases h : 1 < s.i.toNat <;> by_cases h' : 0 < s.j.toNat <;> simp [State.advance, h, h']
@[simp] theorem State.advance_algId (s : State) : s.advance.algId = s.algId := by
  by_cases h : 1 < s.i.toNat <;> by_cases h' : 0 < s.j.toNat <;> simp [State.advance, h, h']
@[simp] theorem State.advance_keybits (s : State) : s.advance.keybits = s.keybits := by
  by_cases h : 1 < s.i.toNat <;> by_cases h' : 0 < s.j.toNat <;> simp [State.advance, h, h']
@[simp] theorem State.advance_wlen (s : State) : s.advance.wlen = s.wlen := by
  by_cases h : 1 < s.i.toNat <;> by_cases h' : 0 < s.j.toNat <;> simp [State.advance, h, h']
@[simp] theorem State.advance_win (s : State) : s.advance.win = s.win := by
  by_cases h : 1 < s.i.toNat <;> by_cases h' : 0 < s.j.toNat <;> simp [State.advance, h, h']
@[simp] theorem State.advance_req (s : State) : s.advance.req = s.req := by
  by_cases h : 1 < s.i.toNat <;> by_cases h' : 0 < s.j.toNat <;> simp [State.advance, h, h']
@[simp] theorem State.advance_engine (s : State) : s.advance.engine = s.engine := by
  by_cases h : 1 < s.i.toNat <;> by_cases h' : 0 < s.j.toNat <;> simp [State.advance, h, h']
@[simp] theorem State.advance_reads (s : State) : s.advance.reads = s.reads := by
  by_cases h : 1 < s.i.toNat <;> by_cases h' : 0 < s.j.toNat <;> simp [State.advance, h, h']
@[simp] theorem State.advance_agenda (s : State) : s.advance.agenda = s.agenda := by
  by_cases h : 1 < s.i.toNat <;> by_cases h' : 0 < s.j.toNat <;> simp [State.advance, h, h']

/-! ### gating (40_host_commands.md R101) -/

@[simp] theorem State.busy_eq_true (s : State) : s.busy = true ↔ s.phase ≠ .idle := by
  simp [State.busy]

theorem State.gated_idle (s : State) (w : State → State) (h : s.phase = .idle) : s.gated w = w s := by
  simp [State.gated, State.busy, h]

theorem State.gated_busy (s : State) (w : State → State) (h : s.phase ≠ .idle) : s.gated w = s.markIgnored := by
  simp [State.gated, h]

/-- A gated write sets IGNORED while BUSY and happens in IDLE. -/
theorem State.gated_cases (s : State) (w : State → State) :
    (s.phase ≠ .idle ∧ s.gated w = s.markIgnored) ∨ (s.phase = .idle ∧ s.gated w = w s) := by
  by_cases h : s.phase = .idle
  · exact .inr ⟨h, s.gated_idle w h⟩
  · exact .inl ⟨h, s.gated_busy w h⟩

end Sys2Proof.Machine
end

