-- ==== Sys2Proof/Laws/Step.lean ====
section
/-! SUPPORT. Everything a host instruction, a sequencer step, an engine step and a step can do, once each. -/

namespace Sys2Proof.Machine

/-- What the command of R102 does: nothing, an accepted START or CLEAR in IDLE, or IGNORED. -/
theorem State.command_cases (s : State) (cmd : BitVec 4) :
    (cmd = 0 ∧ s.command cmd = s) ∨
    (cmd = 1 ∧ s.phase = .idle ∧ s.command cmd = { s.wipe with phase := .validate }) ∨
    (cmd = 2 ∧ s.phase = .idle ∧ s.command cmd = { s.wipe with win := Vector.replicate 40 0 }) ∨
    (((cmd = 1 ∨ cmd = 2) ∧ s.phase ≠ .idle ∨ 3 ≤ cmd.toNat) ∧ s.command cmd = s.markIgnored) := by
  by_cases h0 : cmd = 0
  · exact .inl ⟨h0, by simp [State.command, h0]⟩
  by_cases h1 : cmd = 1
  · subst h1
    rcases s.gated_cases fun s => { s.wipe with phase := .validate } with ⟨h, e⟩ | ⟨h, e⟩
    · exact .inr (.inr (.inr ⟨.inl ⟨.inl rfl, h⟩, by simpa [State.command, State.commandStart] using e⟩))
    · exact .inr (.inl ⟨rfl, h, by simpa [State.command, State.commandStart] using e⟩)
  by_cases h2 : cmd = 2
  · subst h2
    rcases s.gated_cases fun s => { s.wipe with win := Vector.replicate 40 0 } with ⟨h, e⟩ | ⟨h, e⟩
    · exact .inr (.inr (.inr ⟨.inl ⟨.inr rfl, h⟩, by simpa [State.command, State.commandClear] using e⟩))
    · exact .inr (.inr (.inl ⟨rfl, h, by simpa [State.command, State.commandClear] using e⟩))
  · refine .inr (.inr (.inr ⟨.inr ?_, by rw [State.command, if_neg h0, if_neg h1, if_neg h2]⟩))
    have h0' : cmd.toNat ≠ 0 := fun e => h0 (BitVec.eq_of_toNat_eq e)
    have h1' : cmd.toNat ≠ 1 := fun e => h1 (BitVec.eq_of_toNat_eq e)
    have h2' : cmd.toNat ≠ 2 := fun e => h2 (BitVec.eq_of_toNat_eq e)
    omega

/-- What a host instruction can do (40_host_commands.md R100 to R128). -/
inductive HostEffect (i : Instr) (s : State) : State → Prop where
  | nothing : isRead i = false → isReservedCommand i = false → (isGated i = true → False) → HostEffect i s s
  | read (v : Word) : isRead i = true → HostEffect i s (s.answerRead v)
  | ignored : (isGated i = true ∧ s.phase ≠ .idle ∨ isReservedCommand i = true) → HostEffect i s s.markIgnored
  | inten (d : Word) : i = .wrInten d → HostEffect i s { s with inten := d.getLsbD 0 }
  | ack (d : Word) : i = .wrEventDone d → d.getLsbD 0 = false → HostEffect i s { s with eventDone := false }
  | kekHandle (d : Word) : i = .wrKekHandle d → s.phase = .idle → HostEffect i s { s with kekHandle := d }
  | algId (d : Word) : i = .wrAlgId d → s.phase = .idle → HostEffect i s { s with algId := d }
  | keybits (d : Word) : i = .wrKeybits d → s.phase = .idle → HostEffect i s { s with keybits := d }
  | wlen (d : Word) : i = .wrWlen d → s.phase = .idle → HostEffect i s { s with wlen := d }
  | win (w : Fin 10) (d : Word) : i = .wrWin w d → s.phase = .idle →
      HostEffect i s { s with win := storeWinWord s.win w d }
  | start : commandCode i = some 1 → s.phase = .idle → HostEffect i s { s.wipe with phase := .validate }
  | clear : commandCode i = some 2 → s.phase = .idle → HostEffect i s { s.wipe with win := Vector.replicate 40 0 }

/-- Every well-formed host instruction answers a next state, and this is all it can do. -/
theorem exec_effect (i : Instr) (s : State) (hi : i.WellFormed) : ∃ t, exec i s = .next t ∧ HostEffect i s t := by
  have gate (f : State → State) (hg : isGated i = true) (hw : s.phase = .idle → HostEffect i s (f s)) :
      HostEffect i s (s.gated f) := by
    rcases s.gated_cases f with ⟨h, e⟩ | ⟨h, e⟩ <;> rw [e]
    · exact .ignored (.inl ⟨hg, h⟩)
    · exact hw h
  cases i with
  | nop => exact ⟨_, rfl, .nothing rfl rfl (by simp [isGated, isStartOrClear, commandCode])⟩
  | start => exact ⟨_, rfl, gate _ rfl (.start rfl)⟩
  | clear => exact ⟨_, rfl, gate _ rfl (.clear rfl)⟩
  | reservedCmd cmd =>
    exact ⟨_, rfl, .ignored (.inr (by simpa [isReservedCommand, commandCode, Instr.WellFormed, Instr.wf, reservedCode] using hi))⟩
  | wrCtrl d =>
    refine ⟨_, rfl, ?_⟩
    rcases s.command_cases (d.extractLsb' 0 4) with ⟨h, e⟩ | ⟨h, hp, e⟩ | ⟨h, hp, e⟩ | ⟨h, e⟩ <;> rw [e]
    · exact .nothing rfl (by simp [isReservedCommand, commandCode, h]) (by simp [isGated, isStartOrClear, commandCode, h])
    · exact .start (by simp [commandCode, h]) hp
    · exact .clear (by simp [commandCode, h]) hp
    · refine .ignored ?_
      rcases h with ⟨h | h, hp⟩ | h
      · exact .inl ⟨by simp [isGated, isStartOrClear, commandCode, h], hp⟩
      · exact .inl ⟨by simp [isGated, isStartOrClear, commandCode, h], hp⟩
      · exact .inr (by simpa [isReservedCommand, commandCode] using h)
  | wrInten d => exact ⟨_, rfl, .inten d rfl⟩
  | wrEventDone d =>
    refine ⟨_, rfl, ?_⟩
    by_cases h : d.getLsbD 0 = true
    · rw [if_pos h]
      exact .nothing rfl rfl (by simp [isGated, isStartOrClear, commandCode])
    · rw [if_neg h]
      exact .ack d rfl (by simpa using h)
  | wrKekHandle d => exact ⟨_, rfl, gate _ rfl (.kekHandle d rfl)⟩
  | wrAlgId d => exact ⟨_, rfl, gate _ rfl (.algId d rfl)⟩
  | wrKeybits d => exact ⟨_, rfl, gate _ rfl (.keybits d rfl)⟩
  | wrWlen d => exact ⟨_, rfl, gate _ rfl (.wlen d rfl)⟩
  | wrWin w d => exact ⟨_, rfl, gate _ rfl (.win w d rfl)⟩
  | wrRoStatus _ | wrRoDetail _ | wrRoProgress _ | wrRoKeyout _ _ | wrReserved _ _ =>
    exact ⟨_, rfl, .nothing rfl rfl (by simp [isGated, isStartOrClear, commandCode])⟩
  | rdCtrl | rdStatus | rdDetail | rdProgress | rdInten | rdEventDone | rdKekHandle | rdAlgId | rdKeybits | rdWlen =>
    exact ⟨_, rfl, .read _ rfl⟩
  | rdWin _ | rdKeyout _ | rdReserved _ => exact ⟨_, rfl, .read _ rfl⟩

/-- What a good response leads to: R[I] existed, and it is committed. -/
theorem seqRespond_good (rsp : EngResponse) (s t : State) (hg : rsp.good = true) (h : seqRespond rsp s = .next t) :
    (1 ≤ s.i.toNat ∧ s.i.toNat ≤ 4) ∧
    t = (({ s with engine := { s.engine with response := none }, a := blockHigh rsp.data } : State).setSemiblock
      s.i.toNat (blockLow rsp.data)).advance := by
  simp only [seqRespond, hg, if_true] at h
  split at h
  · cases h
  · rename_i x hx
    have hs := s.semiblock_isSome s.i.toNat
    have hx' : s.semiblock s.i.toNat = some x := hx
    rw [hx'] at hs
    refine ⟨by simpa using hs.symm, ?_⟩
    injection h with h
    exact h.symm

theorem seqRespond_bad (rsp : EngResponse) (s : State) (hg : rsp.good = false) :
    seqRespond rsp s = .next (({ s with
      engine := { s.engine with response := none }, detail := respondDetail rsp } : State).terminate .cipherEngineError) := by
  simp [seqRespond, hg]

/-- What ISSUE leads to: R[I] existed, and the request is formed (41_unwrap_sequencer.md R148). -/
theorem seqIssue_next (s t : State) (h : seqIssue s = .next t) :
    ∃ x, s.semiblock s.i.toNat = some x ∧
      t = { s with
        t := roundCounter s.n s.j s.i
        a := xorLowByte s.a (roundCounter s.n s.j s.i)
        req := some { data := joinBlock (xorLowByte s.a (roundCounter s.n s.j s.i)) x, key := s.kekHandle, alg := s.algId }
        calls := s.calls + 1
        phase := .wait } := by
  unfold seqIssue at h
  split at h
  · cases h
  · rename_i x hx
    injection h with h
    exact ⟨x, hx, h.symm⟩

/-- The sequencer's step, by PHASE (30_encoding.md R96). -/
inductive SeqEffect (s : State) : State → Prop where
  | disabled : s.seqEnabled = false → SeqEffect s s
  | validate : s.phase = .validate → SeqEffect s (seqValidate s)
  | issue (t : State) : s.phase = .issue → seqIssue s = .next t → SeqEffect s t
  | commit (rsp : EngResponse) (t : State) : s.phase = .wait → s.engine.response = some rsp → rsp.good = true →
      seqRespond rsp s = .next t → SeqEffect s t
  | error (rsp : EngResponse) (t : State) : s.phase = .wait → s.engine.response = some rsp → rsp.good = false →
      seqRespond rsp s = .next t → SeqEffect s t
  | final : s.phase = .final → SeqEffect s (seqFinal s)

theorem seqStep_effect (s t : State) (h : seqStep s = .next t) : SeqEffect s t := by
  unfold seqStep at h
  split at h
  · rename_i hp
    injection h with h
    subst h
    exact .disabled (by simp [State.seqEnabled, hp])
  · rename_i hp
    injection h with h
    subst h
    exact .validate hp
  · rename_i hp
    exact .issue t hp h
  · rename_i hp
    split at h
    · rename_i hr
      injection h with h
      subst h
      exact .disabled (by simp [State.seqEnabled, State.engRspValid, hp, hr])
    · rename_i rsp hr
      by_cases hg : rsp.good = true
      · exact .commit rsp t hp hr hg h
      · exact .error rsp t hp hr (by simpa using hg) h
  · rename_i hp
    injection h with h
    subst h
    exact .final hp

theorem seqStep_validate (s : State) (hp : s.phase = .validate) : seqStep s = .next (seqValidate s) := by
  unfold seqStep; simp only [hp]

theorem seqStep_issue (s : State) (hp : s.phase = .issue) : seqStep s = seqIssue s := by
  unfold seqStep; simp only [hp]

theorem seqStep_respond (s : State) (rsp : EngResponse) (hp : s.phase = .wait) (hr : s.engine.response = some rsp) :
    seqStep s = seqRespond rsp s := by
  unfold seqStep; simp only [hp, hr]

theorem seqStep_final (s : State) (hp : s.phase = .final) : seqStep s = .next (seqFinal s) := by
  unfold seqStep; simp only [hp]

theorem step_sequencer (s : State) (rest : List Event) (h : s.agenda = .sequencer :: rest) :
    step s = seqStep { s with agenda := rest } := by
  rw [step, h]

/-- ISSUE completes where R[I] exists (41_unwrap_sequencer.md R148). -/
theorem seqIssue_of_semiblock (s : State) (x : Semiblock) (hx : s.semiblock s.i.toNat = some x) :
    seqIssue s = .next { s with
      t := roundCounter s.n s.j s.i
      a := xorLowByte s.a (roundCounter s.n s.j s.i)
      req := some { data := joinBlock (xorLowByte s.a (roundCounter s.n s.j s.i)) x, key := s.kekHandle, alg := s.algId }
      calls := s.calls + 1
      phase := .wait } := by
  unfold seqIssue; rw [hx]

/-- RESPOND on a good response completes where R[I] exists (R153). -/
theorem seqRespond_of_range (rsp : EngResponse) (s : State) (hg : rsp.good = true) (h1 : 1 ≤ s.i.toNat) (h4 : s.i.toNat ≤ 4) :
    seqRespond rsp s = .next (({ s with
      engine := { s.engine with response := none }, a := blockHigh rsp.data } : State).setSemiblock
        s.i.toNat (blockLow rsp.data)).advance := by
  have hs := ({ s with engine := { s.engine with response := none } } : State).semiblock_isSome s.i.toNat
  rw [decide_eq_true ⟨h1, h4⟩] at hs
  obtain ⟨x, hx⟩ := Option.isSome_iff_exists.mp hs
  simp only [seqRespond, hg, if_true, hx]

/-- Everything a step can do: the head of the agenda is taken, as one agent's step. -/
inductive StepEffect (s : State) : State → Prop where
  | idle : s.agenda = [] → StepEffect s s
  | host (tr : Transaction) (i : Instr) (rest : List Event) (t : State) : s.agenda = .host tr :: rest →
      decode tr = .ok i → exec i { s with agenda := rest } = .next t → StepEffect s t
  | sequencer (rest : List Event) (t : State) : s.agenda = .sequencer :: rest →
      SeqEffect { s with agenda := rest } t → StepEffect s t
  | accept (rest : List Event) : s.agenda = .engineAccept :: rest → StepEffect s (engineAccept { s with agenda := rest })
  | answer (rsp : EngResponse) (rest : List Event) : s.agenda = .engineAnswer rsp :: rest →
      StepEffect s (engineAnswer rsp { s with agenda := rest })
  | reset (rest : List Event) : s.agenda = .reset :: rest → StepEffect s ({ s with agenda := rest } : State).takeReset

/-- The fetch is the decoder, its errors as refusals. -/
theorem fetch_ok_iff (tr : Transaction) (i : Instr) : fetch tr = .ok i ↔ decode tr = .ok i := by
  unfold fetch
  split <;> simp_all

theorem step_effect (s t : State) (h : step s = .next t) : StepEffect s t := by
  unfold step at h
  split at h
  · rename_i ha
    injection h with h
    subst h
    exact .idle ha
  · rename_i tr rest ha
    split at h
    · rename_i i hf
      exact .host tr i rest t ha ((fetch_ok_iff tr i).mp hf) h
    · cases h
  · rename_i rest ha
    exact .sequencer rest t ha (seqStep_effect _ _ h)
  · rename_i rest ha
    injection h with h
    subst h
    exact .accept rest ha
  · rename_i rsp rest ha
    injection h with h
    subst h
    exact .answer rsp rest ha
  · rename_i rest ha
    injection h with h
    subst h
    exact .reset rest ha

end Sys2Proof.Machine
end

