-- ==== Sys2Proof/Tests/Slice0.lean ====
section
/-! SUPPORT. Tests. Expected values come from 95_test_vectors.md (the vector is named) or are written out from the encoding tables of
30_encoding.md. Then one witness for the hypotheses of each statement that has some. -/

namespace Sys2Proof.Tests

open Sys2Proof Sys2Proof.Machine

/-! ### Helpers -/

/-- A field of the next state; none where the step stops. -/
def after {β : Type} (o : StepResult) (f : State → β) : Option β :=
  match o with
  | .next t => some (f t)
  | .fault _ => none
  | .refused _ => none

/-- The newest value a read returned. -/
def lastRead (s : State) : Option Word := s.reads.head?

/-- ID-2's wrapped input, in WIN. -/
def id2Win : Vector Byte 40 :=
  #v[0xA6, 0xA6, 0xA6, 0xA6, 0xA6, 0xA6, 0xA6, 0xAA, 0x00, 0x11, 0x22, 0x33, 0x44, 0x55, 0x66, 0x77,
     0x88, 0x99, 0xAA, 0xBB, 0xCC, 0xDD, 0xEE, 0xFF, 0, 0, 0, 0, 0, 0, 0, 0, 0, 0, 0, 0, 0, 0, 0, 0]

/-- The ID-2 operands written, nothing started. -/
def loaded : State :=
  { State.reset with kekHandle := 0x00000011, algId := 0x04404400, keybits := 128, wlen := 24, win := id2Win }

/-- ID-2 after START. -/
def validating : State := { loaded with phase := .validate }

/-- ID-2's semiblocks in R. -/
def id2R : Vector Semiblock 4 := #v[0x0011223344556677, 0x8899AABBCCDDEEFF, 0, 0]

/-- A state of an ID-2 run past VALIDATE. -/
def place (ph : Phase) (a : Semiblock) (j i : BitVec 3) (t calls : BitVec 8) : State :=
  { loaded with phase := ph, a := a, r := id2R, n := 2, j := j, i := i, t := t, calls := calls }

/-- T-2's state before its step. -/
def issuing : State := place .issue 0xA6A6A6A6A6A6A6AA 5 2 0 0

/-- T-2's first request. -/
def request1 : EngRequest := ⟨0xA6A6A6A6A6A6A6A68899AABBCCDDEEFF, 0x00000011, 0x04404400⟩

/-- T-2's state after its step. -/
def waiting : State := { place .wait 0xA6A6A6A6A6A6A6A6 5 2 12 1 with req := some request1 }

/-- The same request taken by the engine. -/
def accepted : State := { waiting with req := none, engine := ⟨some request1, none⟩ }

/-- The same request answered. -/
def answered (rsp : EngResponse) : State := { waiting with req := none, engine := ⟨none, some rsp⟩ }

/-- The response of E-8. -/
def goodRsp : EngResponse := ⟨false, 16, 0x0123456789ABCDEFFEDCBA9876543210⟩

/-- ID-2 in FINAL. -/
def finishing : State := place .final 0xA6A6A6A6A6A6A6A6 0 1 1 12

/-- ID-2 ended OK. -/
def ended : State := { place .idle 0xA6A6A6A6A6A6A6A6 0 1 1 12 with result := .ok, eventDone := true }

/-- A run of N = 4 ended OK, its semiblocks as ID-4's. -/
def ended4 : State :=
  { State.reset with
    a := 0xA6A6A6A6A6A6A6A6, r := #v[0x1011121314151617, 0x18191A1B1C1D1E1F, 0x2021222324252627, 0x28292A2B2C2D2E2F]
    n := 4, i := 1, t := 1, calls := 24, result := .ok, eventDone := true, keybits := 256, wlen := 40 }

/-- A state with one event to take. -/
def upon (s : State) (e : Event) : State := { s with agenda := [e] }

/-! ### Well-formedness: an ill-formed term for each check -/

theorem test_wf_command_code_refused : (Instr.reservedCmd 2).wf = false ∧ (Instr.reservedCmd 0).wf = false := by decide
theorem test_wf_write_offset_refused :
    (Instr.wrReserved 0x000 0).wf = false ∧ (Instr.wrReserved 0x019 0).wf = false ∧ (Instr.wrReserved 0x064 0).wf = false := by decide
theorem test_wf_read_offset_refused :
    (Instr.rdReserved 0x004).wf = false ∧ (Instr.rdReserved 0x09C).wf = false ∧ (Instr.rdReserved 0xFFF).wf = false := by decide
theorem test_wf_accepts : (Instr.reservedCmd 3).wf = true ∧ (Instr.wrReserved 0x018 0).wf = true ∧ (Instr.rdReserved 0xFFC).wf = true := by
  decide

/-! ### Decoding: words written out from 30_encoding.md R82 and R84 -/

theorem test_decode_commands :
    decode (.command 0b0000) = .ok .nop ∧ decode (.command 0b0001) = .ok .start ∧ decode (.command 0b0010) = .ok .clear ∧
    decode (.command 0b0011) = .ok (.reservedCmd 3) ∧ decode (.command 0b0100) = .ok (.reservedCmd 4) ∧
    decode (.command 0b1111) = .ok (.reservedCmd 15) := ⟨rfl, rfl, rfl, rfl, rfl, rfl⟩

theorem test_decode_writes_numeric :
    decode (.write 0x000 32 5) = .ok (.wrCtrl 5) ∧ decode (.write 0x010 32 5) = .ok (.wrInten 5) ∧
    decode (.write 0x014 32 5) = .ok (.wrEventDone 5) ∧ decode (.write 0x020 32 5) = .ok (.wrKekHandle 5) ∧
    decode (.write 0x024 32 5) = .ok (.wrAlgId 5) ∧ decode (.write 0x028 32 5) = .ok (.wrKeybits 5) ∧
    decode (.write 0x02C 32 5) = .ok (.wrWlen 5) := ⟨rfl, rfl, rfl, rfl, rfl, rfl, rfl⟩

theorem test_decode_writes_window :
    decode (.write 0x004 32 5) = .ok (.wrRoStatus 5) ∧ decode (.write 0x008 32 5) = .ok (.wrRoDetail 5) ∧
    decode (.write 0x00C 32 5) = .ok (.wrRoProgress 5) ∧ decode (.write 0x040 32 5) = .ok (.wrWin 0 5) ∧
    decode (.write 0x05C 32 5) = .ok (.wrWin 7 5) ∧ decode (.write 0x064 32 5) = .ok (.wrWin 9 5) ∧
    decode (.write 0x080 32 5) = .ok (.wrRoKeyout 0 5) ∧ decode (.write 0x09C 32 5) = .ok (.wrRoKeyout 7 5) ∧
    decode (.write 0x018 32 5) = .ok (.wrReserved 0x018 5) := ⟨rfl, rfl, rfl, rfl, rfl, rfl, rfl, rfl, rfl⟩

theorem test_decode_reads_numeric :
    decode (.read 0x000 32) = .ok .rdCtrl ∧ decode (.read 0x004 32) = .ok .rdStatus ∧ decode (.read 0x008 32) = .ok .rdDetail ∧
    decode (.read 0x00C 32) = .ok .rdProgress ∧ decode (.read 0x010 32) = .ok .rdInten ∧
    decode (.read 0x014 32) = .ok .rdEventDone ∧ decode (.read 0x020 32) = .ok .rdKekHandle ∧
    decode (.read 0x024 32) = .ok .rdAlgId ∧ decode (.read 0x028 32) = .ok .rdKeybits ∧ decode (.read 0x02C 32) = .ok .rdWlen :=
  ⟨rfl, rfl, rfl, rfl, rfl, rfl, rfl, rfl, rfl, rfl⟩

theorem test_decode_reads_window :
    decode (.read 0x040 32) = .ok (.rdWin 0) ∧ decode (.read 0x064 32) = .ok (.rdWin 9) ∧
    decode (.read 0x080 32) = .ok (.rdKeyout 0) ∧ decode (.read 0x08C 32) = .ok (.rdKeyout 3) ∧
    decode (.read 0x09C 32) = .ok (.rdKeyout 7) ∧ decode (.read 0x068 32) = .ok (.rdReserved 0x068) ∧
    decode (.read 0x07C 32) = .ok (.rdReserved 0x07C) ∧ decode (.read 0x0A0 32) = .ok (.rdReserved 0x0A0) :=
  ⟨rfl, rfl, rfl, rfl, rfl, rfl, rfl, rfl⟩

/-- H-17 and R129: what the decoder refuses. -/
theorem test_decode_refuses :
    decode (.write 0x004 8 0) = .error (.accessSize 8) ∧ decode (.write 0x002 32 0) = .error (.misaligned 0x002) ∧
    decode (.read 0x004 16) = .error (.accessSize 16) ∧ decode (.read 0xFFF 32) = .error (.misaligned 0xFFF) := ⟨rfl, rfl, rfl, rfl⟩

/-- Match values of spec/opcode_table.json as table words. -/
theorem test_table_words :
    decodeTableWord 32 0x00000001 = some .start ∧ decodeTableWord 8 0x08 = some (.reservedCmd 8) ∧
    decodeTableWord 16 0x1040 = some (.wrWin 0 0) ∧ decodeTableWord 16 0x1060 = some (.wrWin 8 0) ∧
    decodeTableWord 16 0x0080 = some (.rdKeyout 0) ∧ decodeTableWord 48 0x00000100_1028 = some (.wrKeybits 0x100) ∧
    decodeTableWord 16 0x0002 = none := by decide

/-! ### One step of each host instruction -/

/-- H-8 -/
theorem test_nop : after (exec .nop loaded) id = some loaded := by decide
/-- H-9 -/
theorem test_start : after (exec .start State.reset) State.statusWord = some 0x00000101 := by decide
/-- K-2 -/
theorem test_start_clears_keyout : after (exec .start ended) (fun t => (t.keyoutWord 0, t.eventDone)) = some (0, false) := by decide
/-- H-12 -/
theorem test_clear : after (exec .clear ended) (fun t => (t.statusWord, t.progressWord, t.keyoutWord 0, t.win, t.keybits)) =
    some (0, 0, 0, Vector.replicate 40 0, 0x80) := by decide
/-- H-18 -/
theorem test_clear_busy : after (exec .clear waiting) (fun t => (t.statusWord, t.win)) = some (0x00000303, id2Win) := by decide
/-- H-11 -/
theorem test_reserved_command :
    after (exec (.reservedCmd 3) ended) (fun t => (t.statusWord, t.keyoutWord 0)) = some (0x00000012, 0x33221100) := by decide
/-- H-13 -/
theorem test_wr_ctrl_start : after (exec (.wrCtrl 0x00000011) ended) State.statusWord = some 0x00000101 := by decide
/-- H-18 -/
theorem test_wr_ctrl_busy : after (exec (.wrCtrl 0x1) waiting) State.statusWord = some 0x00000303 := by decide
/-- H-7 -/
theorem test_wr_status : after (exec (.wrRoStatus 0xFFFFFFFF) State.reset) id = some State.reset := by decide
/-- R107 -/
theorem test_wr_detail : after (exec (.wrRoDetail 0xFFFFFFFF) waiting) id = some waiting := by decide
/-- R107 -/
theorem test_wr_progress : after (exec (.wrRoProgress 0xFFFFFFFF) waiting) id = some waiting := by decide
/-- R107 -/
theorem test_wr_keyout : after (exec (.wrRoKeyout 7 0xFFFFFFFF) ended) id = some ended := by decide
/-- H-19 -/
theorem test_wr_inten_busy : after (exec (.wrInten 0x1) waiting) (fun t => (t.inten, t.ignored)) = some (true, false) := by decide
/-- H-16 -/
theorem test_wr_inten_irq :
    after (exec (.wrInten 0x0) { ended with inten := true }) (fun t => (t.irq, t.eventDone)) = some (false, true) := by decide
/-- H-14 -/
theorem test_wr_event_one :
    after (exec (.wrEventDone 0x1) { ended with inten := true }) (fun t => (t.eventDone, t.irq)) = some (true, true) := by decide
/-- H-15 -/
theorem test_wr_event_zero :
    after (exec (.wrEventDone 0x0) { ended with inten := true }) (fun t => (t.eventDone, t.irq)) = some (false, false) := by decide
/-- R110 -/
theorem test_wr_kek_handle : after (exec (.wrKekHandle 0x11) State.reset) (·.kekHandle) = some 0x11 := by decide
/-- R111 -/
theorem test_wr_alg_id : after (exec (.wrAlgId 0x04404400) State.reset) (·.algId) = some 0x04404400 := by decide
/-- H-2 -/
theorem test_wr_keybits : after (exec (.wrKeybits 0x100) State.reset) (·.keybits) = some 0x100 := by decide
/-- H-18 -/
theorem test_wr_keybits_busy :
    after (exec (.wrKeybits 0x100) waiting) (fun t => (t.statusWord, t.keybits)) = some (0x00000303, 0x80) := by decide
/-- R113 -/
theorem test_wr_wlen : after (exec (.wrWlen 0x18) State.reset) (·.wlen) = some 0x18 := by decide
/-- RFC-4.1's first WIN word, P1: 0A8BA61F holds bytes 1F A6 8B 0A. -/
theorem test_wr_win :
    after (exec (.wrWin 0 0x0A8BA61F) State.reset) (fun t => (t.win[0], t.win[1], t.win[2], t.win[3], t.win[4])) =
      some (0x1F, 0xA6, 0x8B, 0x0A, 0x00) := by decide
/-- The top of the window, R62. -/
theorem test_wr_win_top :
    after (exec (.wrWin 9 0x04030201) State.reset) (fun t => (t.win[35], t.win[36], t.win[39])) = some (0, 1, 4) := by decide
/-- H-5 -/
theorem test_wr_reserved : after (exec (.wrReserved 0x018 0x1) State.reset) id = some State.reset := by decide

/-- H-20 -/
theorem test_rd_ctrl : after (exec .rdCtrl ended) lastRead = some (some 0) := by decide
/-- T-2 -/
theorem test_rd_status : after (exec .rdStatus waiting) lastRead = some (some 0x00000301) := by decide
/-- E-1 -/
theorem test_rd_detail : after (exec .rdDetail { ended with detail := 0x00100100 }) lastRead = some (some 0x00100100) := by decide
/-- T-2 -/
theorem test_rd_progress : after (exec .rdProgress waiting) lastRead = some (some 0x0C010225) := by decide
/-- H-3 -/
theorem test_rd_inten : after (exec .rdInten { ended with inten := true }) lastRead = some (some 1) := by decide
/-- P4 -/
theorem test_rd_event_done : after (exec .rdEventDone ended) lastRead = some (some 1) := by decide
/-- R122 -/
theorem test_rd_kek_handle : after (exec .rdKekHandle loaded) lastRead = some (some 0x11) := by decide
/-- R123 -/
theorem test_rd_alg_id : after (exec .rdAlgId loaded) lastRead = some (some 0x04404400) := by decide
/-- H-18 -/
theorem test_rd_keybits : after (exec .rdKeybits waiting) lastRead = some (some 0x80) := by decide
/-- R125 -/
theorem test_rd_wlen : after (exec .rdWlen loaded) lastRead = some (some 0x18) := by decide
/-- H-4 -/
theorem test_rd_win : after (exec (.rdWin 0) loaded) lastRead = some (some 0) := by decide
/-- ID-2 -/
theorem test_rd_keyout : after (exec (.rdKeyout 3) ended) lastRead = some (some 0xFFEEDDCC) := by decide
/-- ID-4 -/
theorem test_rd_keyout_top : after (exec (.rdKeyout 7) ended4) lastRead = some (some 0x2F2E2D2C) := by decide
/-- H-6 -/
theorem test_rd_reserved : after (exec (.rdReserved 0x0A0) State.reset) lastRead = some (some 0) := by decide

/-! ### The sequencer, the engine, reset: one step each -/

/-- V-1 -/
theorem test_validate_moves_on :
    after (step (upon validating .sequencer)) (fun t => (t.statusWord, t.progressWord, t.a, t.r)) =
      some (0x00000201, 0x00000225, 0xA6A6A6A6A6A6A6AA, id2R) := by decide
/-- V-6 -/
theorem test_validate_all_checks :
    after (step (upon { validating with keybits := 0xFFFFFFFF, wlen := 0 } .sequencer)) (fun t => (t.statusWord, t.detailWord, t.eventDone)) =
      some (0x00000020, 0x00000007, true) := by decide
/-- T-2 -/
theorem test_issue :
    after (step (upon issuing .sequencer)) (fun t => (t.a, t.req, t.statusWord, t.progressWord)) =
      some (0xA6A6A6A6A6A6A6A6, some request1, 0x00000301, 0x0C010225) := by decide
/-- T-3 -/
theorem test_issue_low_byte : xorLowByte 0x00000000000000FF 0x18 = 0x00000000000000E7 := by decide
/-- E-8 -/
theorem test_respond_commits :
    after (step (upon (answered goodRsp) .sequencer)) (fun t => (t.a, t.r[1], t.r[0], t.phase)) =
      some (0x0123456789ABCDEF, 0xFEDCBA9876543210, 0x0011223344556677, .issue) := by decide
/-- E-7 -/
theorem test_respond_wraps :
    after (step (upon { answered goodRsp with j := 5, i := 1 } .sequencer)) (fun t => (t.j, t.i, t.phase)) = some (4, 2, .issue) := by decide
/-- E-3, at the first call: len 15. -/
theorem test_respond_bad_length :
    after (step (upon (answered ⟨false, 15, 7⟩) .sequencer)) (fun t => (t.statusWord, t.detailWord, t.a, t.keyoutWord 0)) =
      some (0x00000030, 0x000F0200, 0, 0) := by decide
/-- E-1 -/
theorem test_respond_engine_error :
    after (step (upon (answered ⟨true, 16, 7⟩) .sequencer)) (fun t => (t.statusWord, t.detailWord, t.progressWord)) =
      some (0x00000030, 0x00100100, 0x0C010225) := by decide
/-- FIN-1 -/
theorem test_final_ok :
    after (step (upon finishing .sequencer)) (fun t => (t.statusWord, t.eventDone, t.keyoutWord 0)) =
      some (0x00000010, true, 0x33221100) := by decide
/-- FIN-2 -/
theorem test_final_low_bit :
    after (step (upon { finishing with a := 0xA6A6A6A6A6A6A6A7 } .sequencer)) (fun t => (t.statusWord, t.detailWord, t.a, t.r, t.keyoutWord 0)) =
      some (0x00000040, 0, 0, Vector.replicate 4 0, 0) := by decide
/-- R183 -/
theorem test_engine_accept :
    after (step (upon waiting .engineAccept)) (fun t => (t.req, t.engine)) = some (none, ⟨some request1, none⟩) := by decide
/-- R184 -/
theorem test_engine_answer :
    after (step (upon accepted (.engineAnswer goodRsp))) (fun t => t.engine) = some ⟨none, some goodRsp⟩ := by decide
/-- RS-1 -/
theorem test_reset_in_wait :
    after (step (upon waiting .reset)) id = some State.reset := by decide
/-- K-1 -/
theorem test_keyout_reads_zero_in_a_run : waiting.keyoutWord 0 = 0 ∧ (answered goodRsp).keyoutWord 3 = 0 := by decide
/-- H-17: the step is refused, whatever the state. -/
theorem test_step_refuses :
    step (upon waiting (.host (.write 0x004 8 0))) = .refused (.accessSize 8) ∧
    step (upon waiting (.host (.write 0x002 32 0))) = .refused (.misaligned 0x002) := ⟨rfl, rfl⟩
/-- A table word is the host's next transaction. -/
theorem test_fetch_word :
    after (step (State.reset.withFetchWord 48 0x00000100_1028)) (·.keybits) = some 0x100 ∧
    after (step (State.reset.withFetchWord 16 0x0004)) lastRead = some (some 0) := by decide

/-! ### Witnesses: the hypotheses of each statement that has some are met, each clause at its boundaries -/

theorem witness_DecodeEncodeRoundTrip :
    (Instr.reservedCmd 3).WellFormed ∧ (Instr.reservedCmd 15).WellFormed ∧ (Instr.wrReserved 0x018 7).WellFormed ∧
    (Instr.wrReserved 0xFFC 7).WellFormed ∧ (Instr.rdReserved 0x0A0).WellFormed ∧ (Instr.wrWin 9 7).WellFormed := by decide

theorem witness_EncodeDecodeRoundTrip :
    decode (.command 0xFFFFFFF1) = .ok .start ∧ decode (.write 0xFFC 32 7) = .ok (.wrReserved 0xFFC 7) ∧
    decode (.read 0x09C 32) = .ok (.rdKeyout 7) := ⟨rfl, rfl, rfl⟩

theorem witness_CommandCodes :
    (0xFFFFFFF0 : Word) &&& 0xF = 0x0 ∧ (0x00000011 : Word) &&& 0xF = 0x1 ∧ (0x00000002 : Word) &&& 0xF = 0x2 ∧
    (0x00000003 : Word) &&& 0xF = 0x3 ∧ (0x00000004 : Word) &&& 0xC = 0x4 ∧ (0x00000007 : Word) &&& 0xC = 0x4 ∧
    (0x00000008 : Word) &&& 0x8 = 0x8 ∧ (0x0000000F : Word) &&& 0x8 = 0x8 := by decide

/-- Each clause's offsets, first and last, are word-aligned and give that clause's index. -/
theorem witness_OffsetSelectsRegister :
    ∀ p ∈ [((0x000 : Offset), 0x000), (0x004, 0x001), (0x008, 0x002), (0x00C, 0x003), (0x010, 0x004), (0x014, 0x005), (0x020, 0x008),
      (0x024, 0x009), (0x028, 0x00A), (0x02C, 0x00B), (0x040, 0x010), (0x064, 0x019), (0x080, 0x020), (0x09C, 0x027),
      (0x018, 0x006), (0x01C, 0x007), (0x030, 0x00C), (0x03C, 0x00F), (0x068, 0x01A), (0x07C, 0x01F), (0x0A0, 0x028), (0xFFC, 0x3FF)],
      p.1.toNat % 4 = 0 ∧ p.1.toNat / 4 = p.2 := by decide

theorem witness_StepRunsDecodedInstruction :
    (upon waiting (.host (.write 0x028 32 7))).agenda = [.host (.write 0x028 32 7)] ∧
    decode (.write 0x028 32 7) = .ok (.wrKeybits 7) := ⟨rfl, rfl⟩

theorem witness_AccessOutsideFormatIsRefused :
    ((31 : Nat) ≠ 32 ∨ (0x000 : Offset).toNat % 4 ≠ 0) ∧ ((32 : Nat) ≠ 32 ∨ (0xFFF : Offset).toNat % 4 ≠ 0) ∧
    ((32 : Nat) = 32 ∧ (0xFFC : Offset).toNat % 4 = 0) := by decide

theorem witness_StepTakesTheAgentsStep :
    loaded.agenda = [] ∧ (upon loaded .sequencer).seqEnabled = false ∧ (upon waiting .sequencer).seqEnabled = false ∧
    (upon loaded .engineAccept).req = none ∧ (upon accepted .engineAccept).engine.pending.isSome ∧
    (upon (answered goodRsp) .engineAccept).engine.response.isSome ∧ (upon waiting (.engineAnswer goodRsp)).engine.pending = none ∧
    (upon (answered goodRsp) (.engineAnswer goodRsp)).engine.response.isSome ∧ (upon validating .sequencer).phase = .validate ∧
    (upon issuing .sequencer).phase = .issue ∧ (upon (answered goodRsp) .sequencer).phase = .wait ∧
    (upon (answered goodRsp) .sequencer).engine.response = some goodRsp ∧ (upon finishing .sequencer).phase = .final ∧
    ((upon waiting .engineAccept).req = some request1 ∧ (upon waiting .engineAccept).engine.pending = none ∧
      (upon waiting .engineAccept).engine.response = none) ∧
    ((upon accepted (.engineAnswer goodRsp)).engine.pending.isSome ∧ (upon accepted (.engineAnswer goodRsp)).engine.response = none) ∧
    (upon waiting .reset).agenda = [.reset] := by decide

theorem witness_ResetStateIsZero : (0xFFC : Offset).toNat % 4 = 0 ∧ (3 : Nat) < 4 ∧ (39 : Nat) < 40 := by decide

theorem witness_ResetStepAbandonsTheRun : (upon waiting .reset).agenda = [.reset] := rfl

theorem witness_NopChangesNothing : (0xABCDEF10 : Word) &&& 0xF = 0x0 := by decide
theorem witness_StartCommand : (0xFFFFFFF1 : Word) &&& 0xF = 0x1 ∧ waiting.phase ≠ .idle ∧ ended.phase = .idle := by decide
theorem witness_ClearCommand : (0xFFFFFFF2 : Word) &&& 0xF = 0x2 ∧ waiting.phase ≠ .idle ∧ ended.phase = .idle := by decide
theorem witness_ReservedCommandOnlySetsIgnored :
    3 ≤ (3 : BitVec 4).toNat ∧ (0x00000013 : Word).setWidth 4 = (3 : BitVec 4) ∧ 3 ≤ (15 : BitVec 4).toNat ∧
    (0xFFFFFFFF : Word).setWidth 4 = (15 : BitVec 4) := by decide
theorem witness_WriteCtrlPerformsTheCommand :
    (0x10 : Word) &&& 0xF = 0x0 ∧ (0x11 : Word) &&& 0xF = 0x1 ∧ (0x12 : Word) &&& 0xF = 0x2 ∧ ended.phase = .idle ∧
    3 ≤ (3 : BitVec 4).toNat ∧ (0x13 : Word).setWidth 4 = (3 : BitVec 4) ∧ 3 ≤ (15 : BitVec 4).toNat ∧
    (0x1F : Word).setWidth 4 = (15 : BitVec 4) := by decide

theorem witness_WriteEventDone : (0xFFFFFFFE : Word).getLsbD 0 = false ∧ (0x1 : Word).getLsbD 0 = true := by decide
theorem witness_WriteOperandRegisters : ended.phase = .idle ∧ waiting.phase ≠ .idle := by decide
/-- Words 0 and 9: the first and last bytes stored, and a byte beside each. -/
theorem witness_WriteWinWord :
    waiting.phase ≠ .idle ∧ ended.phase = .idle ∧ (0 : Nat) < 4 ∧ (3 : Nat) < 4 ∧ 4 * (0 : Fin 10).val + 4 ≤ 4 ∧
    35 < 4 * (9 : Fin 10).val ∧ 4 * (9 : Fin 10).val + 3 = 39 := by decide

/-- Readable lanes: the first of word 0 and, with N = 4, the last of word 7; unreadable: word 4 with N = 2, and any word in a run. -/
theorem witness_ReadKeyout :
    (ended.result = .ok ∧ 4 * (0 : Fin 8).val + 0 < 8 * ended.n.toNat ∧ ended.r[0]? = some 0x0011223344556677) ∧
    (ended4.result = .ok ∧ 4 * (7 : Fin 8).val + 3 < 8 * ended4.n.toNat ∧ ended4.r[3]? = some 0x28292A2B2C2D2E2F) ∧
    (¬ (ended.result = .ok ∧ 4 * (4 : Fin 8).val + 0 < 8 * ended.n.toNat)) ∧
    (¬ (waiting.result = .ok ∧ 4 * (0 : Fin 8).val + 0 < 8 * waiting.n.toNat)) := by decide

theorem witness_ReadsHaveNoSideEffect : isRead .rdStatus = true ∧ isRead (.rdKeyout 7) = true ∧ isRead (.rdReserved 0x0A0) = true := by decide

theorem witness_BusyGating :
    waiting.phase ≠ .idle ∧ (Instr.wrWin 9 7).WellFormed ∧ isGated (.wrWin 9 7) = true ∧ (Instr.wrCtrl 2).WellFormed ∧
    isGated (.wrCtrl 2) = true ∧ (Instr.wrInten 1).WellFormed ∧ isGated (.wrInten 1) = false ∧
    isReservedCommand (.wrInten 1) = false ∧ (Instr.reservedCmd 3).WellFormed ∧ isReservedCommand (.reservedCmd 3) = true ∧
    (Instr.wrCtrl 0xF).WellFormed ∧ isReservedCommand (.wrCtrl 0xF) = true := by decide

theorem witness_HostCannotDisturbARun : waiting.phase ≠ .idle ∧ validating.phase ≠ .idle ∧ finishing.phase ≠ .idle := by decide

theorem witness_IntenWriters :
    after (step (upon loaded (.host (.write 0x010 32 1)))) (·.inten) = some true ∧ loaded.inten = false ∧
    after (step (upon { loaded with inten := true } .reset)) (·.inten) = some false := by decide

theorem witness_IgnoredWriters :
    after (step (upon waiting (.host (.command 2)))) (·.ignored) = some true ∧
    after (step (upon loaded (.host (.command 3)))) (·.ignored) = some true ∧
    after (step (upon { loaded with ignored := true } (.host (.command 1)))) (·.ignored) = some false ∧
    after (step (upon { waiting with ignored := true } .reset)) (·.ignored) = some false ∧
    after (step (upon { waiting with ignored := true } .engineAccept)) (·.ignored) = some true := by decide

theorem witness_EventDoneWriters :
    after (step (upon finishing .sequencer)) (·.eventDone) = some true ∧
    after (step (upon ended (.host (.write 0x014 32 0)))) (·.eventDone) = some false ∧
    after (step (upon ended (.host (.command 2)))) (·.eventDone) = some false ∧
    after (step (upon ended .reset)) (·.eventDone) = some false ∧
    after (step (upon ended .sequencer)) (·.eventDone) = some true := by decide

theorem witness_WinWriters :
    after (step (upon ended (.host (.write 0x064 32 7)))) (·.win[36]) = some 7 ∧ ended.win[36] = 0 ∧
    after (step (upon ended (.host (.command 2)))) (·.win[0]) = some 0 ∧ ended.win[0] = 0xA6 ∧
    after (step (upon ended .reset)) (·.win[0]) = some 0 := by decide

theorem witness_RunWritesNoOperand :
    (upon waiting .engineAccept).agenda = [.engineAccept] ∧ (∀ tr, Event.engineAccept ≠ .host tr) ∧ Event.engineAccept ≠ .reset ∧
    (after (step (upon waiting .engineAccept)) id).isSome ∧ (∀ tr, Event.sequencer ≠ .host tr) ∧ Event.sequencer ≠ .reset ∧
    (after (step (upon finishing .sequencer)) id).isSome := by
  refine ⟨rfl, nofun, nofun, by decide, nofun, nofun, by decide⟩

/-- N = 2, and the smallest and the largest count. -/
theorem witness_ValidateLoadsTheInput :
    (upon validating .sequencer).phase = .validate ∧ inputsValid 128 24 = true ∧ inputsValid 64 16 = true ∧
    inputsValid 256 40 = true := by decide

/-- V-2, V-4 and V-8. -/
theorem witness_ValidateRejects :
    (upon validating .sequencer).phase = .validate ∧ inputsValid 100 24 = false ∧ inputsValid 320 48 = false ∧
    inputsValid 128 40 = false ∧ inputsValid 0 8 = false := by decide

/-- I = 2, and I at its bounds 1 and 4. -/
theorem witness_IssueFormsTheRequest :
    (upon issuing .sequencer).phase = .issue ∧ 1 ≤ issuing.i.toNat ∧ issuing.r[issuing.i.toNat - 1]? = some 0x8899AABBCCDDEEFF ∧
    id2R[(1 : BitVec 3).toNat - 1]? = some 0x0011223344556677 ∧ id2R[(4 : BitVec 3).toNat - 1]? = some 0 := by decide

theorem witness_RespondCommitsAndAdvances :
    (upon (answered goodRsp) .sequencer).phase = .wait ∧ (answered goodRsp).engine.response = some goodRsp ∧ goodRsp.err = false ∧
    goodRsp.len = 16 ∧ 1 ≤ (answered goodRsp).i.toNat ∧ (answered goodRsp).i.toNat ≤ 4 := by decide

theorem witness_RespondEndsOnEngineError :
    (upon (answered ⟨true, 16, 7⟩) .sequencer).phase = .wait ∧ (answered ⟨true, 16, 7⟩).engine.response = some ⟨true, 16, 7⟩ ∧
    (answered ⟨false, 17, 7⟩).engine.response = some ⟨false, 17, 7⟩ ∧ (17 : BitVec 5) ≠ 16 ∧ (15 : BitVec 5) ≠ 16 := by decide

theorem witness_FinalChecksIntegrity :
    (upon finishing .sequencer).phase = .final ∧ finishing.a = 0xA6A6A6A6A6A6A6A6 ∧
    (0xA6A6A6A6A6A6A6A7 : Semiblock) ≠ 0xA6A6A6A6A6A6A6A6 := by decide

theorem witness_TerminateLeavesNoPartialKey :
    ResultCode.ok = .ok ∧ ResultCode.invalidInputLength ≠ .ok ∧ ResultCode.cipherEngineError ≠ .ok ∧
    ResultCode.integrityCheckFailed ≠ .ok := by decide

/-- A state at (J, I) with count N. -/
def positioned (n j i : BitVec 3) : State := { issuing with n := n, j := j, i := i }

/-- The hypotheses at the k-th pair. -/
def atPair (s : State) (k : Nat) : Bool :=
  1 ≤ s.n.toNat && s.n.toNat ≤ 4 && k < 6 * s.n.toNat &&
    (s.j.toNat, s.i.toNat) == (5 - k / s.n.toNat, s.n.toNat - k % s.n.toNat)

/-- N = 1 and N = 4 at the first and the last pair, the pair before the last, and T-4's 7th request. -/
theorem witness_RoundsVisitPairsInOrder :
    atPair (positioned 1 5 1) 0 = true ∧ atPair (positioned 1 0 1) 5 = true ∧ atPair (positioned 4 5 4) 0 = true ∧
    atPair (positioned 4 0 2) 22 = true ∧ atPair (positioned 4 0 1) 23 = true ∧ atPair (positioned 3 3 3) 6 = true := by decide

theorem witness_EngineAcceptsAndAnswers :
    (upon waiting .engineAccept).req = some request1 ∧ (upon waiting .engineAccept).engine = ⟨none, none⟩ ∧
    (upon accepted (.engineAnswer ⟨true, 0, 0⟩)).engine = ⟨some request1, none⟩ := by decide

/-! ### Witnesses of the invariant -/

theorem inv_reset : Inv State.reset := by
  constructor <;> first | decide | (intro q h; simp [State.reset] at h)

theorem inv_validating : Inv validating := by
  constructor <;> first | decide | (intro q h; simp [validating, loaded, State.reset] at h)

theorem inv_issuing : Inv issuing := by
  constructor <;> first | decide | (intro q h; simp [issuing, place, loaded, State.reset] at h)

theorem inv_waiting : Inv waiting := by
  constructor <;> first | decide | (intro q h; simp [waiting, place, loaded, State.reset] at h; subst h; decide)

theorem inv_accepted : Inv accepted := by
  constructor <;> first | decide | (intro q h; simp [accepted] at h; subst h; decide)

theorem inv_answered : Inv (answered goodRsp) := by
  constructor <;> first | decide | (intro q h; simp [answered] at h)

theorem inv_finishing : Inv finishing := by
  constructor <;> first | decide | (intro q h; simp [finishing, place, loaded, State.reset] at h)

theorem inv_ended4 : Inv ended4 := by
  constructor <;> first | decide | (intro q h; simp [ended4, State.reset] at h)

/-- The invariant does not look at the agenda. -/
theorem inv_upon (s : State) (e : Event) (h : Inv s) : Inv (upon s e) :=
  ⟨h.1, h.2, h.3, h.4, h.5, h.6, h.7, h.8, h.9, h.10, h.11, h.12, h.13, h.14, h.15, h.16⟩

theorem witness_ReadStatus : Inv waiting ∧ waiting.phase ≠ .idle := ⟨inv_waiting, by decide⟩

/-- The request on the ports while the host writes, its transfer, and the request in the engine while the host writes. -/
theorem witness_RequestHeldUntilTaken :
    (Inv (upon waiting (.host (.command 2))) ∧ (after (step (upon waiting (.host (.command 2)))) id).isSome ∧
      (upon waiting (.host (.command 2))).req = some request1 ∧
      (∀ rest, (upon waiting (.host (.command 2))).agenda ≠ .engineAccept :: rest) ∧
      (∀ rest, (upon waiting (.host (.command 2))).agenda ≠ .reset :: rest)) ∧
    (Inv (upon waiting .engineAccept) ∧ (after (step (upon waiting .engineAccept)) id).isSome ∧
      (upon waiting .engineAccept).req = some request1 ∧ (upon waiting .engineAccept).agenda = .engineAccept :: []) ∧
    (Inv (upon accepted (.host (.command 2))) ∧ (after (step (upon accepted (.host (.command 2)))) id).isSome ∧
      (upon accepted (.host (.command 2))).engine.pending = some request1 ∧
      (∀ rsp rest, (upon accepted (.host (.command 2))).agenda ≠ .engineAnswer rsp :: rest) ∧
      (∀ rest, (upon accepted (.host (.command 2))).agenda ≠ .reset :: rest)) :=
  ⟨⟨inv_upon _ _ inv_waiting, by decide, rfl, nofun, nofun⟩, ⟨inv_upon _ _ inv_waiting, by decide, rfl, rfl⟩,
    ⟨inv_upon _ _ inv_accepted, by decide, rfl, nofun, nofun⟩⟩

theorem witness_NoTimeoutInWait :
    after (step (upon (answered goodRsp) .sequencer)) (·.phase) = some .issue ∧ (answered goodRsp).phase = .wait ∧
    after (step (upon waiting .reset)) (·.phase) = some .idle := by decide

/-- Each row of the table of R141, and reset. -/
theorem witness_PhaseTransitions :
    after (step (upon loaded (.host (.command 1)))) (·.phase) = some .validate ∧
    after (step (upon { validating with wlen := 0 } .sequencer)) (·.phase) = some .idle ∧
    after (step (upon validating .sequencer)) (·.phase) = some .issue ∧
    after (step (upon issuing .sequencer)) (·.phase) = some .wait ∧
    after (step (upon (answered ⟨true, 16, 7⟩) .sequencer)) (·.phase) = some .idle ∧
    after (step (upon (answered goodRsp) .sequencer)) (·.phase) = some .issue ∧
    after (step (upon { answered goodRsp with j := 0, i := 1 } .sequencer)) (·.phase) = some .final ∧
    after (step (upon finishing .sequencer)) (fun t => (t.phase, t.result)) = some (.idle, .ok) ∧
    after (step (upon { finishing with a := 0 } .sequencer)) (fun t => (t.phase, t.result)) = some (.idle, .integrityCheckFailed) ∧
    after (step (upon issuing .reset)) (·.phase) = some .idle := by decide

theorem witness_StepKeepsInvariant :
    Inv (upon (answered goodRsp) .sequencer) ∧ (after (step (upon (answered goodRsp) .sequencer)) id).isSome ∧
    Inv (upon waiting .engineAccept) ∧ (after (step (upon waiting .engineAccept)) id).isSome :=
  ⟨inv_upon _ _ inv_answered, by decide, inv_upon _ _ inv_waiting, by decide⟩

/-- A state reached from reset: START is taken. -/
theorem reachable_started :
    Reachable { State.reset with phase := .validate } :=
  .step { State.reset with agenda := [.host (.command 1)] } _ (.reset _) (by rfl)

theorem witness_ReachableStatesSatisfyStatedInvariant : Reachable { State.reset with phase := .validate } := reachable_started
theorem witness_AtMostOneRequestOutstanding :
    Reachable { State.reset with phase := .validate } ∧ ({ State.reset with phase := .validate } : State).phase ≠ .wait :=
  ⟨reachable_started, by decide⟩

/-- The step that ends a run, for each result: FIN-1, FIN-2, E-1 and H-10. -/
theorem witness_CallsCountTheRequests :
    (Inv (upon finishing .sequencer) ∧ after (step (upon finishing .sequencer)) (·.result) = some .ok) ∧
    (Inv (upon { finishing with a := 0xA6A6A6A6A6A6A6A7 } .sequencer) ∧
      after (step (upon { finishing with a := 0xA6A6A6A6A6A6A6A7 } .sequencer)) (·.result) = some .integrityCheckFailed) ∧
    (Inv (upon (answered ⟨true, 16, 7⟩) .sequencer) ∧
      after (step (upon (answered ⟨true, 16, 7⟩) .sequencer)) (·.result) = some .cipherEngineError) ∧
    (Inv (upon { State.reset with phase := .validate } .sequencer) ∧
      after (step (upon { State.reset with phase := .validate } .sequencer)) (·.result) = some .invalidInputLength) := by
  refine ⟨⟨inv_upon _ _ inv_finishing, by decide⟩, ⟨?_, by decide⟩, ⟨?_, by decide⟩, ⟨?_, by decide⟩⟩ <;>
    (constructor <;> first | decide | (intro q h; simp [upon, answered, finishing, place, loaded, State.reset] at h))

theorem witness_InvariantStatesNeverFault :
    Inv (upon issuing .sequencer) ∧ Inv (upon waiting (.host (.write 0x002 32 0))) :=
  ⟨inv_upon _ _ inv_issuing, inv_upon _ _ inv_waiting⟩

theorem refines_issuing : Refines issuing := by
  refine ⟨?_, ?_⟩ <;> rfl

theorem refines_accepted : Refines accepted := by
  refine ⟨?_, ?_, ?_⟩
  · rfl
  · rfl
  · intro rsp h; simp [accepted] at h

theorem witness_StepRefinesUnwrap :
    Inv (upon issuing .sequencer) ∧ Refines (upon issuing .sequencer) ∧
    EngineOk issuing.kekHandle issuing.algId (upon issuing .sequencer) ∧ (after (step (upon issuing .sequencer)) id).isSome :=
  ⟨inv_upon _ _ inv_issuing, refines_issuing, nofun, by decide⟩

/-- The engine's answer under ENGINE_OK. -/
theorem witness_StepRefinesUnwrap_answer :
    Inv (upon accepted (.engineAnswer (correctResponse request1))) ∧ Refines (upon accepted (.engineAnswer (correctResponse request1))) ∧
    EngineOk accepted.kekHandle accepted.algId (upon accepted (.engineAnswer (correctResponse request1))) ∧
    ∃ t, step (upon accepted (.engineAnswer (correctResponse request1))) = .next t := by
  refine ⟨inv_upon _ _ inv_accepted, refines_accepted, ?_, ⟨_, rfl⟩⟩
  intro rsp rest q h hq _ _
  simp only [upon, accepted] at h hq
  obtain ⟨h, -⟩ := List.cons.inj h
  cases h
  cases hq
  rfl

/-- ID-2's final state with the algorithm's own working values, whatever ENGINE_DEC is. -/
def finishingRef : State :=
  { finishing with a := (issuing.reference 12).a, r := (issuing.reference 12).r }

theorem inv_finishingRef : Inv finishingRef := by
  constructor <;> first | decide | (intro q h; simp [finishingRef, finishing, place, loaded, State.reset] at h)

theorem witness_FinishedRunIsTheUnwrap :
    Inv (upon finishingRef .sequencer) ∧ Refines (upon finishingRef .sequencer) ∧ (upon finishingRef .sequencer).phase = .final ∧
    (upon finishingRef .sequencer).agenda = [.sequencer] ∧ 4 * (0 : Fin 8).val + 0 < 8 * finishingRef.n.toNat ∧
    4 * (3 : Fin 8).val + 3 < 8 * finishingRef.n.toNat := by
  exact ⟨inv_upon _ _ inv_finishingRef, ⟨rfl, rfl⟩, rfl, rfl, by decide, by decide⟩

theorem witness_RunEndsWithinBound :
    Inv (upon validating .sequencer) ∧ (upon validating .sequencer).seqEnabled = true ∧
    (after (step (upon validating .sequencer)) id).isSome ∧ Inv (upon State.reset (.host (.command 1))) ∧
    State.reset.seqStepsLeft = 0 ∧ validating.seqStepsLeft = 26 ∧ Inv (upon waiting (.host (.command 1))) :=
  ⟨inv_upon _ _ inv_validating, by decide, by decide, inv_upon _ _ inv_reset, by decide, by decide, inv_upon _ _ inv_waiting⟩

/-- The state E-1 ends in. -/
def engineFailed : State :=
  { loaded with
    n := 2, j := 5, i := 2, t := 12, calls := 1, result := .cipherEngineError, detail := 0x00100100, eventDone := true }

/-- A run without end: the request is accepted, answered with an error (E-1) and the answer taken; then nothing is enabled. -/
def fairStates : Nat → State
  | 0 => waiting
  | 1 => accepted
  | 2 => answered ⟨true, 16, 7⟩
  | _ + 3 => engineFailed

def fairEvents : Nat → Event
  | 0 => .engineAccept
  | 1 => .engineAnswer ⟨true, 16, 7⟩
  | _ + 2 => .sequencer

theorem fairStates_runOf : RunOf fairEvents fairStates := fun k =>
  match k with
  | 0 => rfl
  | 1 => rfl
  | 2 => rfl
  | _ + 3 => rfl

theorem fairStates_seqFair : SeqFair fairEvents fairStates := fun k _ => ⟨k + 2, by omega, rfl⟩

theorem fairStates_engineLive : EngineLive fairEvents fairStates where
  answers k h := match k, h with
    | 1, _ => ⟨1, le_rfl, .inl ⟨⟨_, rfl⟩, rfl⟩⟩
    | 0, h | 2, h | _ + 3, h => absurd h (by simp [fairStates, waiting, answered, engineFailed, place, loaded, State.reset])
  accepts k h := match k, h with
    | 0, _ => ⟨0, le_rfl, .inl ⟨rfl, rfl⟩⟩
    | 1, h | 2, h | _ + 3, h =>
      absurd h (by simp [fairStates, State.engReqValid, accepted, answered, engineFailed, loaded, State.reset])

/-- A run in progress in each phase that waits for another agent or for none, and a fair run without end; VALIDATE for the bound. -/
theorem witness_RunIsNeverStuck :
    ((Inv waiting ∧ waiting.phase ≠ .idle) ∧ (Inv accepted ∧ accepted.phase ≠ .idle) ∧ (Inv finishing ∧ finishing.phase ≠ .idle)) ∧
    (RunOf fairEvents fairStates ∧ Inv (fairStates 0) ∧ SeqFair fairEvents fairStates ∧ EngineLive fairEvents fairStates ∧
      (fairStates 0).phase ≠ .idle) :=
  ⟨⟨⟨inv_waiting, by decide⟩, ⟨inv_accepted, by decide⟩, ⟨inv_finishing, by decide⟩⟩,
    fairStates_runOf, inv_waiting, fairStates_seqFair, fairStates_engineLive, by decide⟩

/-- H-9 and H-10 as a fair run without end, which begins in VALIDATE. -/
def refusedStates : Nat → State
  | 0 => { State.reset with phase := .validate }
  | _ + 1 => { State.reset with result := .invalidInputLength, detail := 6, eventDone := true }

theorem witness_RunIsNeverStuck_validate :
    RunOf (fun _ => .sequencer) refusedStates ∧ Inv (refusedStates 0) ∧ SeqFair (fun _ => .sequencer) refusedStates ∧
    EngineLive (fun _ => .sequencer) refusedStates ∧ (refusedStates 0).phase = .validate := by
  refine ⟨fun k => ?_, ?_, fun k _ => ⟨k, le_rfl, rfl⟩, ⟨fun k h => ?_, fun k h => ?_⟩, rfl⟩
  · cases k <;> rfl
  · constructor <;> first | decide | (intro q h; simp [refusedStates, State.reset] at h)
  · cases k <;> simp [refusedStates, State.reset] at h
  · cases k <;> simp [refusedStates, State.engReqValid, State.reset] at h

/-- Two runs at the same point whose A, R, WIN and requests differ. -/
theorem witness_HostSeesNoSecret :
    HostEqual waiting { waiting with a := 0, r := Vector.replicate 4 7, win := Vector.replicate 40 9, req := none } := by
  constructor <;> decide

/-- Two runs whose handles, algorithms and unused WIN bytes differ. -/
theorem witness_RunDependsOnlyOnItsInputs :
    RunEqual (upon validating .sequencer)
      (upon { validating with kekHandle := 7, algId := 9, inten := true, win := validating.win.set 39 0xFF } .sequencer) ∧
    (∀ tr, Event.sequencer ≠ .host tr) ∧ (after (step (upon validating .sequencer)) id).isSome ∧
    (after (step (upon { validating with kekHandle := 7, algId := 9, inten := true, win := validating.win.set 39 0xFF } .sequencer)) id).isSome := by
  refine ⟨?_, nofun, by decide, by decide⟩
  constructor <;> decide

/-- The fault of log 8, in states the invariant rules out: I = 0, and I = 5 and 7 above the array. -/
theorem test_missing_semiblock_faults :
    step (upon { issuing with i := 0 } .sequencer) = .fault (.noSemiblock 0) ∧
    step (upon { issuing with i := 5 } .sequencer) = .fault (.noSemiblock 5) ∧
    step (upon { answered goodRsp with i := 7 } .sequencer) = .fault (.noSemiblock 7) := ⟨rfl, rfl, rfl⟩

theorem witness_IssueAndRespondComplete :
    (Inv (upon issuing .sequencer) ∧ (upon issuing .sequencer).phase = .issue) ∧
    (Inv (upon (answered goodRsp) .sequencer) ∧ (upon (answered goodRsp) .sequencer).phase = .wait ∧
      (upon (answered goodRsp) .sequencer).engine.response = some goodRsp) :=
  ⟨⟨inv_upon _ _ inv_issuing, rfl⟩, inv_upon _ _ inv_answered, rfl, rfl⟩

theorem witness_OutputPorts : waiting.req = some request1 ∧ accepted.req = none := by decide

end Sys2Proof.Tests
end

section
/-! SUPPORT. The decoder answers only well-formed instructions (30_encoding.md R82, R84). -/

namespace Sys2Proof

theorem decodeCommand_wellFormed (w : Word) : (decodeCommand w).WellFormed := by
  simp only [decodeCommand]
  split_ifs with h0 h1 h2
  · rfl
  · rfl
  · rfl
  · simp only [Instr.WellFormed, Instr.wf, reservedCode, decide_eq_true_eq]
    bv_omega

theorem decodeWrite_wellFormed (off : Offset) (d : Word) (h : off.toNat % 4 = 0) : (decodeWrite off d).WellFormed := by
  cases hr : regOfIndex (Offset.index off) with
  | reserved =>
    simp only [decodeWrite, hr]
    exact (reservedOffset_iff off).mpr ⟨h, hr⟩
  | _ => simp only [decodeWrite, hr]; rfl

theorem decodeRead_wellFormed (off : Offset) (h : off.toNat % 4 = 0) : (decodeRead off).WellFormed := by
  cases hr : regOfIndex (Offset.index off) with
  | reserved =>
    simp only [decodeRead, hr]
    exact (reservedOffset_iff off).mpr ⟨h, hr⟩
  | _ => simp only [decodeRead, hr]; rfl

/-- The decoder answers only well-formed instructions. -/
theorem decode_wellFormed (tr : Transaction) (i : Instr) (h : decode tr = .ok i) : i.WellFormed := by
  cases tr with
  | read off size =>
    obtain ⟨⟨-, ha⟩, rfl⟩ := (decode_read_ok_iff off size i).mp h
    exact decodeRead_wellFormed off ha
  | write off size d =>
    obtain ⟨⟨-, ha⟩, rfl⟩ := (decode_write_ok_iff off size d i).mp h
    exact decodeWrite_wellFormed off d ha
  | command w =>
    rw [(decode_command_ok_iff w i).mp h]
    exact decodeCommand_wellFormed w

end Sys2Proof
end

section
/-! SUPPORT. What each step leaves of the host's registers, IGNORED, EVENT_DONE and WIN, then the statements on who writes them
(10_state.md R32 to R34, R39). -/

namespace Sys2Proof.Machine

/-! ### Kinds of host instruction -/

theorem isGated_of_isStartOrClear (i : Instr) (h : isStartOrClear i = true) : isGated i = true := by
  unfold isGated
  split
  case h_6 => exact h
  all_goals rfl

theorem not_isStartOrClear_of_not_isGated (i : Instr) (h : isGated i = false) : isStartOrClear i = false :=
  Bool.eq_false_iff.mpr fun e => Bool.eq_false_iff.mp h (isGated_of_isStartOrClear i e)

theorem not_isReservedCommand_of_isStartOrClear (i : Instr) (h : isStartOrClear i = true) : isReservedCommand i = false := by
  simp only [isStartOrClear, Bool.or_eq_true, beq_iff_eq] at h
  rcases h with h | h <;> simp [isReservedCommand, h]

/-- A read is neither gated nor a reserved command. -/
theorem isRead_plain (i : Instr) (h : isRead i = true) : isGated i = false ∧ isReservedCommand i = false := by
  cases i <;> cases h <;> exact ⟨rfl, rfl⟩

/-- A decoded instruction that answers a next state has one of the effects of `HostEffect`. -/
theorem exec_of_decode (tr : Transaction) (i : Instr) (s t : State) (hd : decode tr = .ok i) (hx : exec i s = .next t) :
    HostEffect i s t := by
  obtain ⟨t', hx', he⟩ := exec_effect i s (decode_wellFormed tr i hd)
  rw [hx'] at hx
  cases hx
  exact he

/-! ### VALIDATE, FINAL, ACCEPT and ANSWER -/

theorem seqValidate_accept (s : State) (h : inputsValid s.keybits s.wlen = true) :
    seqValidate s = { s with
      n := (semiblockCount s.keybits).setWidth 3
      a := winSemiblock s.win 0
      r := loadSemiblocks s.win ((semiblockCount s.keybits).setWidth 3 : BitVec 3).toNat s.r
      j := 5
      i := (semiblockCount s.keybits).setWidth 3
      phase := .issue } := by
  simp [seqValidate, h]

theorem seqValidate_reject (s : State) (h : inputsValid s.keybits s.wlen = false) :
    seqValidate s = ({ s with detail := validateDetail s.keybits s.wlen } : State).terminate .invalidInputLength := by
  simp [seqValidate, h]

/-- FINAL ends the run, by the comparison of A with IV. -/
theorem seqFinal_eq (s : State) : seqFinal s = s.terminate (if s.a = Config.iv then .ok else .integrityCheckFailed) := by
  unfold seqFinal
  split_ifs <;> rfl

/-- ACCEPT moves REQ to an empty engine, or changes nothing. -/
theorem engineAccept_cases (s : State) :
    engineAccept s = s ∨
    ∃ q, s.req = some q ∧ s.engine = ⟨none, none⟩ ∧ engineAccept s = { s with req := none, engine := ⟨some q, none⟩ } := by
  by_cases h : s.acceptEnabled = true
  · right
    simp only [State.acceptEnabled, State.engReqValid, Bool.and_eq_true, Option.isSome_iff_exists, Option.isNone_iff_eq_none] at h
    obtain ⟨⟨⟨q, hq⟩, hp⟩, hr⟩ := h
    refine ⟨q, hq, by rw [← hp, ← hr], ?_⟩
    simp [engineAccept, State.acceptEnabled, State.engReqValid, hq, hp, hr]
  · exact .inl (if_neg h)

/-- ANSWER turns the engine's request into a response, or changes nothing. -/
theorem engineAnswer_cases (rsp : EngResponse) (s : State) :
    engineAnswer rsp s = s ∨
    ∃ q, s.engine = ⟨some q, none⟩ ∧ engineAnswer rsp s = { s with engine := ⟨none, some rsp⟩ } := by
  by_cases h : s.answerEnabled = true
  · right
    have he := h
    simp only [State.answerEnabled, Bool.and_eq_true, Option.isSome_iff_exists, Option.isNone_iff_eq_none] at h
    obtain ⟨⟨q, hp⟩, hr⟩ := h
    exact ⟨q, by rw [← hp, ← hr], if_pos he⟩
  · exact .inl (if_neg h)

/-! ### The registers a run leaves alone -/

/-- What no step of the sequencer or of the engine changes: the host's registers, IGNORED, WIN, what the host has read and the agenda
(41_unwrap_sequencer.md R161). -/
structure HostRegistersKept (s t : State) : Prop where
  win : t.win = s.win
  kekHandle : t.kekHandle = s.kekHandle
  algId : t.algId = s.algId
  keybits : t.keybits = s.keybits
  wlen : t.wlen = s.wlen
  inten : t.inten = s.inten
  ignored : t.ignored = s.ignored
  reads : t.reads = s.reads
  agenda : t.agenda = s.agenda

theorem HostRegistersKept.refl (s : State) : HostRegistersKept s s := by constructor <;> rfl

theorem SeqEffect.hostRegistersKept {s t : State} (h : SeqEffect s t) : HostRegistersKept s t := by
  cases h with
  | disabled _ => exact .refl s
  | validate _ =>
    by_cases hv : inputsValid s.keybits s.wlen = true
    · rw [seqValidate_accept s hv]
      constructor <;> rfl
    · rw [seqValidate_reject s (by simpa using hv)]
      constructor <;> simp
  | issue _ _ hi =>
    obtain ⟨x, -, rfl⟩ := seqIssue_next s t hi
    constructor <;> rfl
  | commit rsp _ _ _ hg hr =>
    obtain ⟨-, rfl⟩ := seqRespond_good rsp s t hg hr
    constructor <;> simp
  | error rsp _ _ _ hg hr =>
    rw [seqRespond_bad rsp s hg] at hr
    cases hr
    constructor <;> simp
  | final _ =>
    rw [seqFinal_eq]
    constructor <;> simp

theorem engineAccept_hostRegistersKept (s : State) : HostRegistersKept s (engineAccept s) := by
  rcases engineAccept_cases s with e | ⟨q, -, -, e⟩ <;> rw [e] <;> constructor <;> rfl

theorem engineAnswer_hostRegistersKept (rsp : EngResponse) (s : State) : HostRegistersKept s (engineAnswer rsp s) := by
  rcases engineAnswer_cases rsp s with e | ⟨q, -, e⟩ <;> rw [e] <;> constructor <;> rfl

/-! ### EVENT_DONE after a step of the sequencer or of the engine -/

@[simp] theorem engineAccept_eventDone (s : State) : (engineAccept s).eventDone = s.eventDone := by
  rcases engineAccept_cases s with e | ⟨q, -, -, e⟩ <;> rw [e]

@[simp] theorem engineAnswer_eventDone (rsp : EngResponse) (s : State) : (engineAnswer rsp s).eventDone = s.eventDone := by
  rcases engineAnswer_cases rsp s with e | ⟨q, -, e⟩ <;> rw [e]

/-- A sequencer step sets EVENT_DONE exactly when it brings PHASE to IDLE (41_unwrap_sequencer.md R165). -/
theorem SeqEffect.eventDone_eq {s t : State} (h : SeqEffect s t) :
    t.eventDone = (s.eventDone || (decide (s.phase ≠ .idle) && decide (t.phase = .idle))) := by
  cases h with
  | disabled hd => by_cases hp : s.phase = .idle <;> simp [hp]
  | validate hp =>
    by_cases hv : inputsValid s.keybits s.wlen = true
    · simp [seqValidate_accept s hv]
    · simp [seqValidate_reject s (by simpa using hv), hp]
  | issue _ _ hi =>
    obtain ⟨x, -, rfl⟩ := seqIssue_next s t hi
    simp
  | commit rsp _ _ _ hg hr =>
    obtain ⟨-, rfl⟩ := seqRespond_good rsp s t hg hr
    have hne : (if 1 < s.i.toNat ∨ 0 < s.j.toNat then Phase.issue else Phase.final) ≠ .idle := by
      split_ifs <;> decide
    simp [State.advance_phase, hne]
  | error rsp _ hp _ hg hr =>
    rw [seqRespond_bad rsp s hg] at hr
    cases hr
    simp [hp]
  | final hp => simp [seqFinal_eq, hp]

/-! ### What a host instruction writes -/

/-- INTEN changes only by a host write to INTEN. -/
theorem HostEffect.inten_eq_or {i : Instr} {s t : State} (h : HostEffect i s t) : t.inten = s.inten ∨ ∃ d, i = .wrInten d := by
  cases h with
  | inten d hi => exact .inr ⟨d, hi⟩
  | _ => exact .inl rfl

/-- IGNORED after a host instruction (10_state.md R32). -/
theorem HostEffect.ignored_eq {i : Instr} {s t : State} (h : HostEffect i s t) :
    t.ignored =
      if s.phase ≠ .idle ∧ isGated i = true ∨ isReservedCommand i = true then true
      else if s.phase = .idle ∧ isStartOrClear i = true then false
      else s.ignored := by
  cases h with
  | nothing _ hc hg =>
    have hg : isGated i = false := Bool.eq_false_iff.mpr hg
    simp [hc, hg, not_isStartOrClear_of_not_isGated i hg]
  | read v hr =>
    obtain ⟨hg, hc⟩ := isRead_plain i hr
    simp [hc, hg, not_isStartOrClear_of_not_isGated i hg]
  | ignored hc =>
    rw [if_pos (hc.imp_left And.symm)]
    rfl
  | start hc hp | clear hc hp =>
    have hs : isStartOrClear i = true := by simp [isStartOrClear, hc]
    simp [not_isReservedCommand_of_isStartOrClear i hs, hs, hp]
  | inten d hi | ack d hi _ =>
    subst hi
    simp [isGated, isReservedCommand, isStartOrClear, commandCode]
  | kekHandle d hi hp | algId d hi hp | keybits d hi hp | wlen d hi hp | win w d hi hp =>
    subst hi
    simp [isReservedCommand, isStartOrClear, commandCode, hp]

/-- EVENT_DONE after a host instruction that is no acknowledgement (10_state.md R33). -/
theorem HostEffect.eventDone_eq {i : Instr} {s t : State} (h : HostEffect i s t) (hi : clearsEvent i = false) :
    t.eventDone = if s.phase = .idle ∧ isStartOrClear i = true then false else s.eventDone := by
  cases h with
  | nothing _ _ hg => simp [not_isStartOrClear_of_not_isGated i (Bool.eq_false_iff.mpr hg)]
  | read v hr => simp [not_isStartOrClear_of_not_isGated i (isRead_plain i hr).1]
  | ignored hc =>
    refine (if_neg ?_).symm
    rintro ⟨hp, hs⟩
    rcases hc with ⟨-, hb⟩ | hc
    · exact hb hp
    · simp [not_isReservedCommand_of_isStartOrClear i hs] at hc
  | start hc hp | clear hc hp =>
    have hs : isStartOrClear i = true := by simp [isStartOrClear, hc]
    simp [hs, hp]
  | ack d e hd =>
    subst e
    simp only [clearsEvent, hd] at hi
    cases hi
  | inten d e | kekHandle d e _ | algId d e _ | keybits d e _ | wlen d e _ | win w d e _ =>
    subst e
    simp [isStartOrClear, commandCode]

/-- A write of 0 to bit 0 of EVENT_DONE clears the event (40_host_commands.md R109). -/
theorem exec_clearsEvent (i : Instr) (s t : State) (hi : clearsEvent i = true) (h : exec i s = .next t) : t.eventDone = false := by
  cases i with
  | wrEventDone d =>
    have hd : d.getLsbD 0 = false := by simpa only [clearsEvent, Bool.not_eq_true'] using hi
    simp only [exec, execWrEventDone, hd] at h
    cases h
    rfl
  | _ => cases hi

/-- WIN changes only in IDLE, by a write to WIN or by CLEAR (10_state.md R39). -/
theorem HostEffect.win_eq_or {i : Instr} {s t : State} (h : HostEffect i s t) :
    t.win = s.win ∨ s.phase = .idle ∧ (commandCode i = some 2 ∨ ∃ w d, i = .wrWin w d) := by
  cases h with
  | win w d hi hp => exact .inr ⟨hp, .inr ⟨w, d, hi⟩⟩
  | clear hc hp => exact .inr ⟨hp, .inl hc⟩
  | _ => exact .inl rfl

/-! ### The statements -/

/-- Settles O29: INTEN changes only by reset and by the host's write to it. -/
theorem intenWriters : Obligations.IntenWriters := by
  intro s t h hne
  cases step_effect s t h with
  | idle _ => exact absurd rfl hne
  | host tr i rest _ ha hd hx =>
    obtain e | ⟨d, rfl⟩ := (exec_of_decode tr i _ t hd hx).inten_eq_or
    · exact absurd e hne
    · exact .inr ⟨tr, d, rest, ha, hd⟩
  | sequencer rest _ ha he => exact absurd he.hostRegistersKept.inten hne
  | accept rest ha => exact absurd (engineAccept_hostRegistersKept _).inten hne
  | answer rsp rest ha => exact absurd (engineAnswer_hostRegistersKept rsp _).inten hne
  | reset rest ha => exact .inl ⟨rest, ha⟩

/-- Settles O30: each agent's step leaves IGNORED as R32 says. -/
theorem ignoredWriters : Obligations.IgnoredWriters := by
  intro s t h
  cases step_effect s t h with
  | idle ha => simp only [ha]
  | host tr i rest _ ha hd hx => simpa only [ha, hd] using (exec_of_decode tr i _ t hd hx).ignored_eq
  | sequencer rest _ ha he => simpa only [ha] using he.hostRegistersKept.ignored
  | accept rest ha => simpa only [ha] using (engineAccept_hostRegistersKept _).ignored
  | answer rsp rest ha => simpa only [ha] using (engineAnswer_hostRegistersKept rsp _).ignored
  | reset rest ha => simp only [ha]; rfl

/-- Settles O31: each agent's step leaves EVENT_DONE as R33 says. -/
theorem eventDoneWriters : Obligations.EventDoneWriters := by
  intro s t h
  cases step_effect s t h with
  | idle ha => simp only [ha]
  | host tr i rest _ ha hd hx =>
    by_cases hc : clearsEvent i = true
    · simp [ha, hd, hc, exec_clearsEvent i _ t hc hx]
    · simpa [ha, hd, hc] using (exec_of_decode tr i _ t hd hx).eventDone_eq (by simpa using hc)
  | sequencer rest _ ha he => simpa only [ha] using he.eventDone_eq
  | accept rest ha => simp [ha]
  | answer rsp rest ha => simp [ha]
  | reset rest ha => simp only [ha]; rfl

/-- Settles O32: WIN changes only by reset and, in IDLE, by a host write to it or CLEAR. -/
theorem winWriters : Obligations.WinWriters := by
  intro s t h hne
  cases step_effect s t h with
  | idle _ => exact absurd rfl hne
  | host tr i rest _ ha hd hx =>
    obtain e | ⟨hp, hw⟩ := (exec_of_decode tr i _ t hd hx).win_eq_or
    · exact absurd e hne
    · exact .inr ⟨tr, i, rest, ha, hd, hp, hw⟩
  | sequencer rest _ ha he => exact absurd he.hostRegistersKept.win hne
  | accept rest ha => exact absurd (engineAccept_hostRegistersKept _).win hne
  | answer rsp rest ha => exact absurd (engineAnswer_hostRegistersKept rsp _).win hne
  | reset rest ha => exact .inl ⟨rest, ha⟩

end Sys2Proof.Machine
end

section
/-! SUPPORT. The invariant every step keeps: the parts it is made of, then one lemma for each agent's step (10_state.md R56). -/

namespace Sys2Proof.Machine

/-! ### Outstanding requests -/

theorem State.outstanding_eq_zero_iff (s : State) :
    s.outstanding = 0 ↔ s.req = none ∧ s.engine.pending = none ∧ s.engine.response = none := by
  simp [State.outstanding, and_assoc]

/-- Where the one outstanding request is a presented response, taking it leaves nothing outstanding (42_engine_interface.md R186). -/
theorem State.outstanding_takeResponse (s : State) (h : s.outstanding = 1) (hr : s.engine.response.isSome) :
    s.req = none ∧ s.engine.pending = none := by
  simpa [State.outstanding, hr] using h

/-! ### DETAIL -/

/-- VALIDATE sets no reserved bit of DETAIL (10_state.md R43). -/
theorem validateDetail_masked (kb wl : Word) : validateDetail kb wl &&& detailMask = validateDetail kb wl := by
  unfold validateDetail
  generalize lengthMismatch kb wl = e2
  generalize countOutOfRange kb = e1
  generalize keybitsUnaligned kb = e0
  revert e0 e1 e2
  decide

/-- RESPOND sets no reserved bit of DETAIL (10_state.md R43). -/
theorem respondDetail_masked (rsp : EngResponse) : respondDetail rsp &&& detailMask = respondDetail rsp := by
  unfold respondDetail
  generalize (rsp.len != Config.blockBytes) = bad
  generalize rsp.err = err
  generalize rsp.len = len
  revert len bad err
  decide

/-! ### VALIDATE's load -/

/-- VALIDATE keeps R[n+1..4] (41_unwrap_sequencer.md R146). -/
theorem loadSemiblocks_kept (win : Vector Byte 40) (n : Nat) (r : Vector Semiblock 4) (k : Nat) (hk : n ≤ k) :
    (loadSemiblocks win n r)[k]? = r[k]? := by
  by_cases h4 : k < 4
  · have : ¬ k + 1 ≤ n := by omega
    interval_cases k <;> simp [loadSemiblocks, this]
  · rw [Vector.getElem?_eq_none (by omega), Vector.getElem?_eq_none (by omega)]

/-- Check e1 on the count itself (41_unwrap_sequencer.md R144). -/
theorem countOutOfRange_iff (kb : Word) :
    countOutOfRange kb = true ↔ (semiblockCount kb).toNat < 1 ∨ 4 < (semiblockCount kb).toNat := by
  rw [countOutOfRange, Bool.or_eq_true, decide_eq_true_iff, decide_eq_true_iff]
  rfl

/-- Valid operands have a count of 1 to 4, which the three bits of N hold. -/
theorem latchedCount_range (kb wl : Word) (h : inputsValid kb wl = true) :
    1 ≤ ((semiblockCount kb).setWidth 3).toNat ∧ ((semiblockCount kb).setWidth 3).toNat ≤ 4 := by
  have hc : ¬ countOutOfRange kb = true := fun hc => by simp [inputsValid, hc] at h
  rw [countOutOfRange_iff] at hc
  rw [BitVec.toNat_setWidth]
  omega

/-! ### The position -/

/-- In range at least the present pair is left, and at most the 6N of a run (41_unwrap_sequencer.md R147). -/
theorem State.inRange.pairsLeft_le {s : State} (h : s.inRange) : 1 ≤ s.pairsLeft ∧ s.pairsLeft ≤ 6 * s.n.toNat := by
  obtain ⟨hn, hn4, hj, hi, hin⟩ := h
  have := Nat.mul_le_mul_left s.n.toNat hj
  simp only [State.pairsLeft]
  omega

/-- The round counter of a position in range does not wrap (41_unwrap_sequencer.md R150). -/
theorem State.inRange.roundCounter_toNat {s : State} (h : s.inRange) : (roundCounter s.n s.j s.i).toNat = s.pairsLeft := by
  obtain ⟨-, hle⟩ := h.pairsLeft_le
  obtain ⟨-, hn4, -⟩ := h
  simp only [State.pairsLeft] at hle
  simp only [roundCounter, State.pairsLeft, BitVec.toNat_ofNat]
  omega

/-- `advance()` goes to the next pair, one nearer to the last (41_unwrap_sequencer.md R156). -/
theorem State.inRange.advance {s : State} (h : s.inRange) (hm : 1 < s.i.toNat ∨ 0 < s.j.toNat) :
    s.advance.inRange ∧ s.advance.pairsLeft + 1 = s.pairsLeft := by
  obtain ⟨hn, hn4, hj, hi, hin⟩ := h
  by_cases h1 : 1 < s.i.toNat
  · have e : (s.i - 1).toNat = s.i.toNat - 1 := by bv_omega
    simp only [State.inRange, State.pairsLeft, State.advance_n, State.advance_j, State.advance_i, if_pos h1, e]
    omega
  · have hj0 : 0 < s.j.toNat := by omega
    have e : (s.j - 1).toNat = s.j.toNat - 1 := by bv_omega
    have hmul : s.n.toNat * (s.j.toNat - 1) + s.n.toNat = s.n.toNat * s.j.toNat := by
      rw [← Nat.mul_succ, Nat.succ_eq_add_one, Nat.sub_add_cancel hj0]
    simp only [State.inRange, State.pairsLeft, State.advance_n, State.advance_j, State.advance_i, if_neg h1, if_pos hj0, e]
    omega

/-- At the last pair `advance()` keeps the position (R156). -/
theorem State.advance_last (s : State) (h1 : ¬ 1 < s.i.toNat) (h2 : ¬ 0 < s.j.toNat) : s.advance = { s with phase := .final } := by
  simp [State.advance, h1, h2]

/-- In range, R[I] exists. -/
theorem State.inRange.semiblock {s : State} (h : s.inRange) : ∃ x, s.semiblock s.i.toNat = some x := by
  obtain ⟨-, hn4, -, hi, hin⟩ := h
  rw [← Option.isSome_iff_exists, State.semiblock_isSome, decide_eq_true_eq]
  omega

/-! ### The invariant -/

/-- The invariant does not look at IGNORED, INTEN, the lengths, WIN, what the host has read or the agenda. -/
theorem Inv.of_hostFields {s t : State} (h : Inv s)
    (ht : t = { s with
      ignored := t.ignored, inten := t.inten, keybits := t.keybits, wlen := t.wlen, win := t.win, reads := t.reads
      agenda := t.agenda }) : Inv t := by
  rw [ht]
  exact { h with }

/-- Outside WAIT neither KUW nor the engine holds a request (42_engine_interface.md R186). -/
theorem Inv.noRequest {s : State} (h : Inv s) (hp : s.phase ≠ .wait) : s.req = none ∧ s.engine = ⟨none, none⟩ := by
  obtain ⟨hq, hpe, hre⟩ := s.outstanding_eq_zero_iff.mp (h.noneElsewhere hp)
  exact ⟨hq, by rw [← hpe, ← hre]⟩

/-- A state whose working state is all zero and which has nothing outstanding: reset, START and CLEAR leave such states. -/
theorem Inv.of_wiped {s : State} (hp : s.phase = .idle ∨ s.phase = .validate) (hres : s.result = .none)
    (hev : s.eventDone = false) (hpos : s.positionZero) (ha : s.a = 0) (hr : s.r = Vector.replicate 4 0) (hd : s.detail = 0)
    (ho : s.outstanding = 0) : Inv s where
  issuePosition h := by simp [h] at hp
  waitPosition h := by simp [h] at hp
  finalPosition h := by simp [h] at hp
  oneInWait h := by simp [h] at hp
  noneElsewhere _ := ho
  requestHeld q h := by
    obtain ⟨hq, hpe, -⟩ := s.outstanding_eq_zero_iff.mp ho
    simp [hq, hpe] at h
  running _ := ⟨hres, hev⟩
  untouched _ := ⟨hpos, ha, hr⟩
  okEnd h := by simp [hres] at h
  invalidEnd _ := hpos
  engineEnd h := by simp [hres] at h
  integrityEnd h := by simp [hres] at h
  errorWiped _ := ⟨ha, hr⟩
  tailZero k _ hk := by simp [hr, hk]
  detailZero _ := hd
  detailReserved := by simp [hd]

/-- A run past VALIDATE has no result yet: what the invariant asks of it. -/
theorem Inv.of_pastValidate {s : State} (hp : s.pastValidate) (hres : s.result = .none) (hev : s.eventDone = false)
    (hd : s.detail = 0) (htail : ∀ k, s.n.toNat ≤ k → k < 4 → s.r[k]? = some 0)
    (hissue : s.phase = .issue → s.inRange ∧ s.calls.toNat + s.pairsLeft = 6 * s.n.toNat)
    (hwait : s.phase = .wait → s.lastIssuedHere) (hfinal : s.phase = .final → s.allIssued)
    (hone : s.phase = .wait → s.outstanding = 1) (hnone : s.phase ≠ .wait → s.outstanding = 0)
    (hreq : ∀ q, s.req = some q ∨ s.engine.pending = some q →
      s.semiblock s.i.toNat = some (blockLow q.data) ∧ s.a = blockHigh q.data ∧ q.key = s.kekHandle ∧ q.alg = s.algId) :
    Inv s where
  issuePosition := hissue
  waitPosition := hwait
  finalPosition := hfinal
  oneInWait := hone
  noneElsewhere := hnone
  requestHeld := hreq
  running _ := ⟨hres, hev⟩
  untouched h := by rcases h with h | ⟨h, -⟩ <;> simp [State.pastValidate, h] at hp
  okEnd h := by simp [hres] at h
  invalidEnd h := by simp [hres] at h
  engineEnd h := by simp [hres] at h
  integrityEnd h := by simp [hres] at h
  errorWiped h := by simp [hres, ResultCode.isError] at h
  tailZero := htail
  detailZero _ := hd
  detailReserved := by simp [hd]

theorem State.terminate_lastIssuedHere (s : State) (code : ResultCode) : (s.terminate code).lastIssuedHere ↔ s.lastIssuedHere := by
  simp [State.lastIssuedHere, State.inRange, State.pairsLeft]

theorem State.terminate_allIssued (s : State) (code : ResultCode) : (s.terminate code).allIssued ↔ s.allIssued := by
  simp [State.allIssued, State.terminate_lastIssuedHere]

theorem State.terminate_positionZero (s : State) (code : ResultCode) : (s.terminate code).positionZero ↔ s.positionZero := by
  simp [State.positionZero]

/-- `terminate` keeps the invariant where the position and DETAIL are those of the code (41_unwrap_sequencer.md R165). -/
theorem Inv.after_terminate {s : State} {code : ResultCode} (hc : code ≠ .none) (ho : s.outstanding = 0)
    (hok : code = .ok → s.a = Config.iv ∧ s.allIssued) (hinv : code = .invalidInputLength → s.positionZero)
    (heng : code = .cipherEngineError → s.lastIssuedHere) (hint : code = .integrityCheckFailed → s.allIssued)
    (htail : ∀ k, s.n.toNat ≤ k → k < 4 → s.r[k]? = some 0)
    (hd : code = .ok ∨ code = .integrityCheckFailed → s.detail = 0) (hm : s.detail &&& detailMask = s.detail) :
    Inv (s.terminate code) where
  issuePosition h := by simp at h
  waitPosition h := by simp at h
  finalPosition h := by simp at h
  oneInWait h := by simp at h
  noneElsewhere _ := by simpa [State.outstanding] using ho
  requestHeld q h := by
    obtain ⟨hq, hpe, -⟩ := s.outstanding_eq_zero_iff.mp ho
    simp [hq, hpe] at h
  running h := by simp at h
  untouched h := by simp [hc] at h
  okEnd h := by
    have h : code = .ok := by simpa using h
    obtain ⟨ha, hall⟩ := hok h
    exact ⟨by simpa [h] using ha, (s.terminate_allIssued code).mpr hall⟩
  invalidEnd h := (s.terminate_positionZero code).mpr (hinv (by simpa using h))
  engineEnd h := (s.terminate_lastIssuedHere code).mpr (heng (by simpa using h))
  integrityEnd h := (s.terminate_allIssued code).mpr (hint (by simpa using h))
  errorWiped h := by
    have h : code ≠ .ok := by rintro rfl; simp [ResultCode.isError] at h
    simp [h]
  tailZero k hk h4 := by
    by_cases h : code = .ok
    · simpa [h] using htail k (by simpa using hk) h4
    · simp [h, h4]
  detailZero h := by simpa using hd (by simpa [hc] using h)
  detailReserved := by simpa using hm

/-! ### The invariant after each agent's step -/

theorem Inv.reset (agenda : List Event) : Inv { State.reset with agenda := agenda } :=
  .of_wiped (.inl rfl) rfl rfl ⟨rfl, rfl, rfl, rfl, rfl⟩ rfl rfl rfl rfl

theorem Inv.after_reset (s : State) : Inv s.takeReset := .of_wiped (.inl rfl) rfl rfl ⟨rfl, rfl, rfl, rfl, rfl⟩ rfl rfl rfl rfl

/-- No host instruction breaks the invariant: while BUSY it changes nothing the invariant looks at, and in IDLE no request is outstanding. -/
theorem Inv.after_host {i : Instr} {s t : State} (h : Inv s) (he : HostEffect i s t) : Inv t := by
  have idleFree (hp : s.phase = .idle) : s.outstanding = 0 := h.noneElsewhere (by simp [hp])
  have idleRequest (hp : s.phase = .idle) (q : EngRequest) (hq : s.req = some q ∨ s.engine.pending = some q) : False := by
    obtain ⟨e1, e2⟩ := h.noRequest (by simp [hp])
    simp [e1, e2] at hq
  cases he with
  | nothing _ _ _ => exact h
  | read v _ => exact h.of_hostFields rfl
  | ignored _ => exact h.of_hostFields rfl
  | inten d _ => exact h.of_hostFields rfl
  | keybits d _ _ => exact h.of_hostFields rfl
  | wlen d _ _ => exact h.of_hostFields rfl
  | win w d _ _ => exact h.of_hostFields rfl
  | ack d _ _ => exact { h with running := fun hp => ⟨(h.running hp).1, rfl⟩ }
  | kekHandle d _ hp => exact { h with requestHeld := fun q hq => (idleRequest hp q hq).elim }
  | algId d _ hp => exact { h with requestHeld := fun q hq => (idleRequest hp q hq).elim }
  | start _ hp => exact .of_wiped (.inr rfl) rfl rfl ⟨rfl, rfl, rfl, rfl, rfl⟩ rfl rfl rfl (idleFree hp)
  | clear _ hp => exact .of_wiped (.inl hp) rfl rfl ⟨rfl, rfl, rfl, rfl, rfl⟩ rfl rfl rfl (idleFree hp)

theorem Inv.after_accept {s : State} (h : Inv s) : Inv (engineAccept s) := by
  obtain e | ⟨q, hq, hen, e⟩ := engineAccept_cases s <;> rw [e]
  · exact h
  · have ho : ({ s with req := none, engine := ⟨some q, none⟩ } : State).outstanding = s.outstanding := by
      simp [State.outstanding, hq, hen]
    refine { h with oneInWait := fun hp => ho.trans (h.oneInWait hp), noneElsewhere := fun hp => ho.trans (h.noneElsewhere hp),
                    requestHeld := fun q' hq' => ?_ }
    obtain rfl : q = q' := by simpa using hq'
    exact h.requestHeld q (.inl hq)

theorem Inv.after_answer {s : State} (rsp : EngResponse) (h : Inv s) : Inv (engineAnswer rsp s) := by
  obtain e | ⟨q, hen, e⟩ := engineAnswer_cases rsp s <;> rw [e]
  · exact h
  · have ho : ({ s with engine := ⟨none, some rsp⟩ } : State).outstanding = s.outstanding := by
      simp [State.outstanding, hen]
    exact { h with oneInWait := fun hp => ho.trans (h.oneInWait hp), noneElsewhere := fun hp => ho.trans (h.noneElsewhere hp),
                   requestHeld := fun q' hq' => h.requestHeld q' (hq'.imp_right nofun) }

/-- VALIDATE starts a run at (5, N) with no call made, or ends it with PROGRESS zero (41_unwrap_sequencer.md R142, R147). -/
theorem Inv.after_validate {s : State} (h : Inv s) (hp : s.phase = .validate) : Inv (seqValidate s) := by
  have hw : s.phase ≠ .wait := by simp [hp]
  obtain ⟨hres, hev⟩ := h.running (by simp [hp])
  obtain ⟨hpos, ha, hr⟩ := h.untouched (.inl hp)
  have hd : s.detail = 0 := h.detailZero (.inl hres)
  obtain ⟨hq, hen⟩ := h.noRequest hw
  by_cases hv : inputsValid s.keybits s.wlen = true
  · rw [seqValidate_accept s hv]
    obtain ⟨hn1, hn4⟩ := latchedCount_range s.keybits s.wlen hv
    refine .of_pastValidate (.inl rfl) hres hev hd ?_ ?_ nofun nofun nofun (fun _ => h.noneElsewhere hw) ?_
    · intro k hk h4
      rw [loadSemiblocks_kept _ _ _ _ hk, hr]
      simp [h4]
    · intro _
      obtain ⟨-, -, -, -, hcalls⟩ := hpos
      refine ⟨⟨hn1, hn4, by simp, hn1, le_rfl⟩, ?_⟩
      have h5 : (5 : BitVec 3).toNat = 5 := rfl
      have h0 : (0 : BitVec 8).toNat = 0 := rfl
      simp only [State.pairsLeft, hcalls, h0, h5]
      omega
    · intro q hq'
      simp [hq, hen] at hq'
  · rw [seqValidate_reject s (by simpa using hv)]
    exact .after_terminate nofun (h.noneElsewhere hw) nofun (fun _ => hpos) nofun nofun h.tailZero (by simp)
      (validateDetail_masked _ _)

/-- ISSUE makes the one request, with the present block (41_unwrap_sequencer.md R148). -/
theorem Inv.after_issue {s t : State} (h : Inv s) (hp : s.phase = .issue) (ht : seqIssue s = .next t) : Inv t := by
  have hw : s.phase ≠ .wait := by simp [hp]
  obtain ⟨hres, hev⟩ := h.running (by simp [hp])
  obtain ⟨hin, hcalls⟩ := h.issuePosition hp
  obtain ⟨hq, hen⟩ := h.noRequest hw
  obtain ⟨x, hx, rfl⟩ := seqIssue_next s t ht
  refine .of_pastValidate (.inr (.inl rfl)) hres hev (h.detailZero (.inl hres)) h.tailZero nofun ?_ nofun ?_ (absurd rfl) ?_
  · intro _
    refine ⟨hin, hin.roundCounter_toNat, ?_⟩
    obtain ⟨hp1, -⟩ := hin.pairsLeft_le
    have ⟨_, hn4, _⟩ := hin
    have hc : (s.calls + 1).toNat = s.calls.toNat + 1 := by bv_omega
    change (s.calls + 1).toNat + s.pairsLeft = 6 * s.n.toNat + 1
    omega
  · intro _
    simp [State.outstanding, hen]
  · rintro q (hq' | hq')
    · cases hq'
      exact ⟨by rw [blockLow_joinBlock]; exact hx, (blockHigh_joinBlock _ _).symm, rfl, rfl⟩
    · simp [hen] at hq'

/-- Writing R[I] keeps the zeroes of R[N+1..4] (10_state.md R23). -/
theorem setIfInBounds_tail (r : Vector Semiblock 4) (n i : Nat) (v : Semiblock) (hi : 1 ≤ i) (hin : i ≤ n)
    (h : ∀ k, n ≤ k → k < 4 → r[k]? = some 0) (k : Nat) (hk : n ≤ k) (h4 : k < 4) : (r.setIfInBounds (i - 1) v)[k]? = some 0 := by
  rw [Vector.getElem?_setIfInBounds_ne (by omega)]
  exact h k hk h4

/-- `advance()` from a pair whose request is answered goes to the next pair, or to FINAL after the last (41_unwrap_sequencer.md R156). -/
theorem Inv.after_advance {s : State} (hlast : s.lastIssuedHere) (ho : s.outstanding = 0) (hres : s.result = .none)
    (hev : s.eventDone = false) (hd : s.detail = 0) (htail : ∀ k, s.n.toNat ≤ k → k < 4 → s.r[k]? = some 0) :
    Inv s.advance := by
  obtain ⟨hin, ht, hcalls⟩ := hlast
  have hreq (q : EngRequest) : ¬ (s.req = some q ∨ s.engine.pending = some q) := by
    obtain ⟨hq, hpe, -⟩ := s.outstanding_eq_zero_iff.mp ho
    simp [hq, hpe]
  by_cases hm : 1 < s.i.toNat ∨ 0 < s.j.toNat
  · have hp : s.advance.phase = .issue := by simp [State.advance_phase, hm]
    obtain ⟨hin', hnext⟩ := hin.advance hm
    refine .of_pastValidate (.inl hp) (by simpa using hres) (by simpa using hev) (by simpa using hd) (by simpa using htail)
      (fun _ => ⟨hin', ?_⟩) (by simp [hp]) (by simp [hp]) (by simp [hp]) (fun _ => by simpa [State.outstanding] using ho)
      (fun q hq => absurd (by simpa using hq) (hreq q))
    rw [State.advance_calls, State.advance_n]
    omega
  · have ⟨_, _, _, hi1, _⟩ := hin
    have hi : s.i.toNat = 1 := by omega
    have hj : s.j.toNat = 0 := by omega
    rw [s.advance_last (fun h => hm (.inl h)) (fun h => hm (.inr h))]
    exact .of_pastValidate (.inr (.inr rfl)) hres hev hd htail nofun nofun (fun _ => ⟨⟨hin, ht, hcalls⟩, hj, hi⟩) nofun
      (fun _ => ho) (fun q hq => absurd hq (hreq q))

/-- RESPOND commits a good response to A and R[I] and advances (41_unwrap_sequencer.md R153, R155). -/
theorem Inv.after_commit {s t : State} {rsp : EngResponse} (h : Inv s) (hp : s.phase = .wait)
    (hr : s.engine.response = some rsp) (hg : rsp.good = true) (ht : seqRespond rsp s = .next t) : Inv t := by
  obtain ⟨hres, hev⟩ := h.running (by simp [hp])
  obtain ⟨hq, hpe⟩ := s.outstanding_takeResponse (h.oneInWait hp) (by simp [hr])
  have hlast := h.waitPosition hp
  have ⟨⟨_, _, _, _, hin⟩, _⟩ := hlast
  obtain ⟨⟨hi1, hi4⟩, rfl⟩ := seqRespond_good rsp s t hg ht
  refine .after_advance ?_ (by simp [State.outstanding, hq, hpe]) (by simpa using hres) (by simpa using hev)
    (by simpa using h.detailZero (.inl hres)) ?_
  · simpa [State.lastIssuedHere, State.inRange, State.pairsLeft] using hlast
  · intro k hk h4
    rw [State.setSemiblock_r _ _ _ hi1]
    exact setIfInBounds_tail s.r s.n.toNat s.i.toNat _ hi1 hin h.tailZero k (by simpa using hk) h4

theorem Inv.after_engineError {s : State} (rsp : EngResponse) (h : Inv s) (hp : s.phase = .wait)
    (hr : s.engine.response = some rsp) :
    Inv (({ s with engine := { s.engine with response := none }, detail := respondDetail rsp } : State).terminate
      .cipherEngineError) := by
  obtain ⟨hq, hpe⟩ := s.outstanding_takeResponse (h.oneInWait hp) (by simp [hr])
  exact .after_terminate nofun (by simp [State.outstanding, hq, hpe]) nofun nofun (fun _ => h.waitPosition hp) nofun h.tailZero (by simp)
    (respondDetail_masked rsp)

/-- FINAL ends the run at the last pair, with all requests made (41_unwrap_sequencer.md R157). -/
theorem Inv.after_final {s : State} (h : Inv s) (hp : s.phase = .final) : Inv (seqFinal s) := by
  obtain ⟨hres, -⟩ := h.running (by simp [hp])
  have hd : s.detail = 0 := h.detailZero (.inl hres)
  rw [seqFinal_eq]
  refine .after_terminate ?_ (h.noneElsewhere (by simp [hp])) (fun hok => ⟨?_, h.finalPosition hp⟩) ?_ ?_ (fun _ => h.finalPosition hp)
    h.tailZero (fun _ => hd) h.detailReserved
  · split_ifs <;> decide
  · by_contra ha
    simp [ha] at hok
  · split_ifs <;> exact nofun
  · split_ifs <;> exact nofun

theorem Inv.after_sequencer {s t : State} (h : Inv s) (he : SeqEffect s t) : Inv t := by
  cases he with
  | disabled _ => exact h
  | validate hp => exact h.after_validate hp
  | issue _ hp ht => exact h.after_issue hp ht
  | commit rsp _ hp hr hg ht => exact h.after_commit hp hr hg ht
  | error rsp _ hp hr hg ht =>
    rw [seqRespond_bad rsp s hg] at ht
    cases ht
    exact h.after_engineError rsp hp hr
  | final hp => exact h.after_final hp

/-- Settles O48, one agent's step at a time. -/
theorem stepKeepsInvariant : Obligations.StepKeepsInvariant := by
  intro s t h hst
  have taken (rest : List Event) : Inv { s with agenda := rest } := h.of_hostFields rfl
  cases step_effect s t hst with
  | idle _ => exact h
  | host tr i rest _ _ hd hx => exact (taken rest).after_host (exec_of_decode tr i _ t hd hx)
  | sequencer rest _ _ he => exact (taken rest).after_sequencer he
  | accept rest _ => exact (taken rest).after_accept
  | answer rsp rest _ => exact (taken rest).after_answer rsp
  | reset rest _ => exact .after_reset _

end Sys2Proof.Machine
end

section
/-! SUPPORT. What the invariant gives: R56 of every reachable state, steps that complete, and what PROGRESS holds at the end of a run. -/

namespace Sys2Proof.Machine

/-! ### Reachable states -/

/-- Every reachable state meets the invariant. -/
theorem Reachable.inv {s : State} (h : Reachable s) : Inv s := by
  induction h with
  | reset agenda => exact .reset agenda
  | step s t _ hst ih => exact stepKeepsInvariant s t ih hst

/-- After the last pair CALLS is 6N, and the last counter issued is 1. -/
theorem State.allIssued.calls_eq {s : State} (h : s.allIssued) : s.calls.toNat = 6 * s.n.toNat ∧ s.t.toNat = 1 := by
  obtain ⟨⟨-, ht, hcalls⟩, hj, hi⟩ := h
  simp only [State.pairsLeft, hj, hi] at ht hcalls
  omega

/-- The invariant every step keeps gives R56's. -/
theorem Inv.stated {s : State} (h : Inv s) : StatedInvariant s where
  phaseCode := by cases s.phase <;> decide
  indices hp := by
    rcases hp with hp | hp | hp
    · exact (h.issuePosition hp).left
    · exact (h.waitPosition hp).left
    · obtain ⟨⟨hin, -⟩, -⟩ := h.finalPosition hp
      exact hin
  finalPosition hp := by
    have hall := h.finalPosition hp
    have ⟨_, hj, hi⟩ := hall
    exact ⟨hj, hi, hall.calls_eq.1⟩
  requestInWait hq := by
    by_contra hp
    simp [(h.noRequest hp).1] at hq
  okAtRest hok := by
    refine ⟨?_, (h.okEnd hok).left⟩
    by_contra hp
    obtain ⟨hres, -⟩ := h.running hp
    simp [hok] at hres
  errorWiped := h.errorWiped
  runningUnsettled := h.running

/-- Settles O49: R56's items follow from the invariant, which every reachable state meets. -/
theorem reachableStatesSatisfyStatedInvariant : Obligations.ReachableStatesSatisfyStatedInvariant :=
  fun _ h => h.inv.stated

/-- Settles O47: every working element of the reset state is zero. -/
theorem resetSatisfiesInvariant : Obligations.ResetSatisfiesInvariant := Inv.reset

/-! ### No step of the sequencer faults -/

/-- ISSUE completes with the request for A and R[I] (41_unwrap_sequencer.md R148). -/
theorem Inv.issue_completes {s : State} (h : Inv s) (hp : s.phase = .issue) :
    ∃ x t, s.semiblock s.i.toNat = some x ∧ seqIssue s = .next t ∧ t.phase = .wait ∧
      t.req = some ⟨t.a ++ x, s.kekHandle, s.algId⟩ := by
  obtain ⟨x, hx⟩ := (h.issuePosition hp).1.semiblock
  exact ⟨x, _, hx, seqIssue_of_semiblock s x hx, rfl, rfl⟩

/-- RESPOND completes on every response, in a phase where nothing is outstanding (41_unwrap_sequencer.md R153). -/
theorem Inv.respond_completes {s : State} (rsp : EngResponse) (h : Inv s) (hp : s.phase = .wait) :
    ∃ t, seqRespond rsp s = .next t ∧ (t.phase = .idle ∨ t.phase = .issue ∨ t.phase = .final) := by
  by_cases hg : rsp.good = true
  · obtain ⟨⟨-, hn4, -, hi, hin⟩, -⟩ := h.waitPosition hp
    refine ⟨_, seqRespond_of_range rsp s hg hi (hin.trans hn4), .inr ?_⟩
    rw [State.advance_phase]
    split_ifs
    · exact .inl rfl
    · exact .inr rfl
  · exact ⟨_, seqRespond_bad rsp s (by simpa using hg), .inl (State.terminate_phase _ _)⟩

theorem Inv.seqStep_completes {s : State} (h : Inv s) : ∃ t, seqStep s = .next t := by
  cases hp : s.phase with
  | idle => exact ⟨s, by simp only [seqStep, hp]⟩
  | validate => exact ⟨_, seqStep_validate s hp⟩
  | issue =>
    obtain ⟨_, t, -, ht, -⟩ := h.issue_completes hp
    exact ⟨t, (seqStep_issue s hp).trans ht⟩
  | wait =>
    cases hr : s.engine.response with
    | none => exact ⟨s, by simp only [seqStep, hp, hr]⟩
    | some rsp =>
      obtain ⟨t, ht, -⟩ := h.respond_completes rsp hp
      exact ⟨t, (seqStep_respond s rsp hp hr).trans ht⟩
  | final => exact ⟨_, seqStep_final s hp⟩

theorem step_issue (s : State) (rest : List Event) (ha : s.agenda = .sequencer :: rest) (hp : s.phase = .issue) :
    step s = seqIssue { s with agenda := rest } :=
  (step_sequencer s rest ha).trans (seqStep_issue { s with agenda := rest } hp)

theorem step_respond (s : State) (rest : List Event) (rsp : EngResponse) (ha : s.agenda = .sequencer :: rest)
    (hp : s.phase = .wait) (hr : s.engine.response = some rsp) : step s = seqRespond rsp { s with agenda := rest } :=
  (step_sequencer s rest ha).trans (seqStep_respond { s with agenda := rest } rsp hp hr)

/-! ### The fetch of the host's transaction -/

theorem step_host_of_decode (s : State) (tr : Transaction) (rest : List Event) (i : Instr)
    (ha : s.agenda = .host tr :: rest) (hd : decode tr = .ok i) : step s = exec i { s with agenda := rest } := by
  simp only [step, ha, (fetch_ok_iff tr i).mpr hd]

/-- What is outside the format is refused (40_host_commands.md R129). -/
theorem step_host_refused (s : State) (tr : Transaction) (rest : List Event) (ha : s.agenda = .host tr :: rest)
    (hf : tr.inFormat = false) : ∃ r, step s = .refused r := by
  cases hft : fetch tr with
  | error r => exact ⟨r, by simp only [step, ha, hft]⟩
  | ok i =>
    have := (decode_isOk_iff tr).mp ⟨i, (fetch_ok_iff tr i).mp hft⟩
    simp [hf] at this

/-- A host transaction in the format completes, in every state. -/
theorem step_host_next (s : State) (tr : Transaction) (rest : List Event) (ha : s.agenda = .host tr :: rest)
    (hf : tr.inFormat = true) : ∃ t, step s = .next t := by
  obtain ⟨i, hd⟩ := (decode_isOk_iff tr).mpr hf
  obtain ⟨t, ht, -⟩ := exec_effect i { s with agenda := rest } (decode_wellFormed tr i hd)
  exact ⟨t, (step_host_of_decode s tr rest i ha hd).trans ht⟩

/-- Settles O51: only the sequencer's step could fault, and the position of the invariant is in range. -/
theorem invariantStatesNeverFault : Obligations.InvariantStatesNeverFault := by
  intro s h
  cases ha : s.agenda with
  | nil => exact .inl ⟨s, by simp only [step, ha]⟩
  | cons e rest =>
    have taken : Inv { s with agenda := rest } := h.of_hostFields rfl
    cases e with
    | host tr =>
      by_cases hf : tr.inFormat = true
      · exact .inl (step_host_next s tr rest ha hf)
      · obtain ⟨r, hr⟩ := step_host_refused s tr rest ha (by simpa using hf)
        exact .inr ⟨tr, rest, r, rfl, by simpa using hf, hr⟩
    | sequencer =>
      obtain ⟨t, ht⟩ := taken.seqStep_completes
      exact .inl ⟨t, (step_sequencer s rest ha).trans ht⟩
    | engineAccept | engineAnswer rsp | reset => exact .inl ⟨_, by simp only [step, ha]; rfl⟩

/-- Settles O59: ISSUE and RESPOND complete, and the invariant of the next state counts what is outstanding. -/
theorem issueAndRespondComplete : Obligations.IssueAndRespondComplete := by
  intro s rest h ha
  have taken : Inv { s with agenda := rest } := h.of_hostFields rfl
  constructor
  · intro hp
    obtain ⟨⟨-, -, -, hi, hin⟩, -⟩ := h.issuePosition hp
    obtain ⟨x, t, hx, ht, hpt, hq⟩ := taken.issue_completes hp
    have hst : step s = .next t := (step_issue s rest ha hp).trans ht
    rw [State.semiblock_eq _ _ hi] at hx
    exact ⟨t, x, hi, hin, hx, hst, hpt, hq, (stepKeepsInvariant s t h hst).oneInWait hpt⟩
  · intro rsp hp hr
    obtain ⟨t, ht, hpt⟩ := taken.respond_completes rsp hp
    have hst : step s = .next t := (step_respond s rest rsp ha hp hr).trans ht
    refine ⟨t, hst, (stepKeepsInvariant s t h hst).noneElsewhere ?_, hpt⟩
    rcases hpt with e | e | e <;> simp [e]

/-! ### CALLS and PROGRESS -/

/-- The last request issued at (j, i) is the one of the CALLS-th pair of R147. -/
theorem State.lastIssuedHere.pair {s : State} (h : s.lastIssuedHere) :
    (s.j.toNat, s.i.toNat) = pairOf s.n.toNat (s.calls.toNat - 1) := by
  obtain ⟨⟨hn, hn4, hj, hi, hin⟩, -, hcalls⟩ := h
  simp only [State.pairsLeft] at hcalls
  have hc : s.calls.toNat - 1 = s.n.toNat - s.i.toNat + s.n.toNat * (5 - s.j.toNat) := by
    rw [Nat.mul_sub]
    have := Nat.mul_le_mul_left s.n.toNat hj
    omega
  have hlt : s.n.toNat - s.i.toNat < s.n.toNat := by omega
  rw [pairOf, hc, Nat.add_mul_div_left _ _ hn, Nat.add_mul_mod_self_left, Nat.div_eq_of_lt hlt, Nat.mod_eq_of_lt hlt, Prod.mk.injEq]
  omega

theorem State.lastIssuedHere.calls_range {s : State} (h : s.lastIssuedHere) :
    1 ≤ s.calls.toNat ∧ s.calls.toNat ≤ 6 * s.n.toNat := by
  obtain ⟨hin, -, hcalls⟩ := h
  have := hin.pairsLeft_le
  omega

/-- CALLS is zero before the first request and at most 6N after it, in every phase and with every result. -/
theorem Inv.calls_le {s : State} (h : Inv s) : s.calls.toNat ≤ 24 := by
  have ofLast (hl : s.lastIssuedHere) : s.calls.toNat ≤ 24 := by
    have := hl.calls_range
    obtain ⟨⟨-, hn4, -⟩, -⟩ := hl
    omega
  have ofZero (hz : s.positionZero) : s.calls.toNat ≤ 24 := by
    obtain ⟨-, -, -, -, hc⟩ := hz
    simp [hc]
  cases hp : s.phase with
  | validate => exact ofZero (h.untouched (.inl hp)).1
  | issue =>
    obtain ⟨⟨-, hn4, -⟩, hcalls⟩ := h.issuePosition hp
    omega
  | wait => exact ofLast (h.waitPosition hp)
  | final => exact ofLast (h.finalPosition hp).1
  | idle =>
    cases hr : s.result with
    | none => exact ofZero (h.untouched (.inr ⟨hp, hr⟩)).1
    | ok =>
      obtain ⟨-, hlast, -⟩ := h.okEnd hr
      exact ofLast hlast
    | invalidInputLength => exact ofZero (h.invalidEnd hr)
    | cipherEngineError => exact ofLast (h.engineEnd hr)
    | integrityCheckFailed => exact ofLast (h.integrityEnd hr).1

theorem State.progressWord_of_positionZero {s : State} (h : s.positionZero) : s.progressWord = 0 := by
  obtain ⟨hn, hj, hi, ht, hc⟩ := h
  simp only [State.progressWord, hn, hj, hi, ht, hc]
  decide

/-- Settles O52: the invariant of the next state, read by its result. -/
theorem callsCountTheRequests : Obligations.CallsCountTheRequests := by
  intro s t h hst
  have ht : Inv t := stepKeepsInvariant s t h hst
  refine ⟨fun hr => ?_, fun hr => ?_, fun hr => State.progressWord_of_positionZero (ht.invalidEnd hr), ht.calls_le⟩
  · have hall : t.allIssued := hr.elim (fun e => (ht.okEnd e).2) ht.integrityEnd
    obtain ⟨hcalls, ht1⟩ := hall.calls_eq
    obtain ⟨⟨⟨hn, hn4, -⟩, -⟩, hj, hi⟩ := hall
    exact ⟨hcalls, hn, hn4, hj, hi, ht1, ht.detailZero (.inr hr)⟩
  · have hlast := ht.engineEnd hr
    obtain ⟨hc1, hc6⟩ := hlast.calls_range
    have hpair := hlast.pair
    obtain ⟨⟨hn, hn4, hj, hi, hin⟩, htp, -⟩ := hlast
    exact ⟨hn, hn4, hj, hi, hin, hc1, hc6, hpair, htp⟩

end Sys2Proof.Machine
end

section
/-! SUPPORT. What is read from the reset state, and the output ports (10_state.md R53, R54). -/

namespace Sys2Proof.Machine

/-- With no key released every KEYOUT word reads 0 (10_state.md R49). -/
theorem State.keyoutWord_of_not_ok (s : State) (w : Fin 8) (h : s.result ≠ .ok) : s.keyoutWord w = 0 := by
  simp only [State.keyoutWord, State.keyoutByte, h, false_and, if_false]
  decide

theorem isRead_decodeRead (off : Offset) : isRead (decodeRead off) = true := by
  unfold decodeRead
  split <;> rfl

/-- Every read in the reset state answers 0 (10_state.md R54). -/
theorem exec_read_reset (i : Instr) (hi : isRead i = true) : exec i State.reset = .next (State.reset.answerRead 0) := by
  cases i with
  | rdKeyout w =>
    have hk : State.reset.keyoutWord w = 0 := State.keyoutWord_of_not_ok _ w nofun
    simp only [exec, execRdKeyout, hk]
  | rdCtrl | rdStatus | rdDetail | rdProgress | rdInten | rdEventDone | rdKekHandle | rdAlgId | rdKeybits | rdWlen => rfl
  | rdWin _ | rdReserved _ => rfl
  | _ => cases hi

/-- Settles O9: element by element, then every read by its register. -/
theorem resetStateIsZero : Obligations.ResetStateIsZero := by
  refine ⟨rfl, rfl, rfl, ?_, rfl, rfl, rfl, rfl, rfl, rfl, rfl, rfl, rfl, rfl, rfl, rfl, rfl, rfl, rfl, ?_, rfl, rfl, ?_⟩
  · intro k hk
    simp [State.reset, hk]
  · intro k hk
    simp [State.reset, hk]
  · intro off hoff
    have hd : decode (.read off 32) = .ok (decodeRead off) := (decode_read_ok_iff off 32 _).mpr ⟨⟨rfl, hoff⟩, rfl⟩
    exact (step_host_of_decode { State.reset with agenda := [.host (.read off 32)] } _ [] _ rfl hd).trans
      (exec_read_reset _ (isRead_decodeRead off))

/-- Settles O60: each output is a function of the fields it is wired to. -/
theorem outputPorts : Obligations.OutputPorts := by
  intro s
  refine ⟨by simp [State.irq], fun q hq => ?_, fun hq => ?_, by simp [State.engRspReady]⟩ <;>
    simp [State.engReqValid, State.engReqPorts, hq]

end Sys2Proof.Machine
end

section
/-! SUPPORT. What the host can see: each read answers, and each write writes, alike in two states equal for the host (10_state.md R22,
R23, R48, R49). -/

namespace Sys2Proof.Machine

/-- KEYOUT reads R only where a key is released, and there the two states have the same R (10_state.md R49). -/
theorem HostEqual.keyoutWord_eq {s t : State} (h : HostEqual s t) (w : Fin 8) : s.keyoutWord w = t.keyoutWord w := by
  obtain ⟨hres, -⟩ := h.status
  obtain ⟨hn, -⟩ := h.position
  by_cases hok : s.result = .ok
  · simp only [State.keyoutWord, State.keyoutByte, State.keyByte, hres, hn, h.key hok]
  · rw [s.keyoutWord_of_not_ok w hok, t.keyoutWord_of_not_ok w (hres ▸ hok)]

theorem HostEqual.statusWord_eq {s t : State} (h : HostEqual s t) : s.statusWord = t.statusWord := by
  obtain ⟨hres, -, hig⟩ := h.status
  simp only [State.statusWord, State.busy, h.phase, hres, hig]

theorem HostEqual.progressWord_eq {s t : State} (h : HostEqual s t) : s.progressWord = t.progressWord := by
  obtain ⟨hn, hj, hi, ht, hc⟩ := h.position
  simp only [State.progressWord, hn, hj, hi, ht, hc]

theorem HostEqual.detailWord_eq {s t : State} (h : HostEqual s t) : s.detailWord = t.detailWord := by
  obtain ⟨-, hd, -⟩ := h.status
  simp only [State.detailWord, hd]

theorem HostEqual.answerRead {s t : State} (h : HostEqual s t) {v w : Word} (hv : v = w) :
    HostEqual (s.answerRead v) (t.answerRead w) :=
  { h with reads := by rw [State.answerRead_reads, State.answerRead_reads, hv, h.reads] }

theorem HostEqual.markIgnored {s t : State} (h : HostEqual s t) : HostEqual s.markIgnored t.markIgnored :=
  have ⟨hres, hd, _⟩ := h.status
  { h with status := ⟨hres, hd, rfl⟩ }

/-- A gated write is taken or ignored in both states alike. -/
theorem HostEqual.gated {s t : State} {f : State → State} (h : HostEqual s t)
    (hf : s.phase = .idle → HostEqual (f s) (f t)) : HostEqual (s.gated f) (t.gated f) := by
  by_cases hp : s.phase = .idle
  · rw [s.gated_idle f hp, t.gated_idle f (h.phase ▸ hp)]
    exact hf hp
  · rw [s.gated_busy f hp, t.gated_busy f (h.phase ▸ hp)]
    exact h.markIgnored

theorem HostEqual.wipe {s t : State} (h : HostEqual s t) : HostEqual s.wipe t.wipe :=
  { h with
    position := ⟨rfl, rfl, rfl, rfl, rfl⟩, status := ⟨rfl, rfl, rfl⟩, event := ⟨rfl, h.event.right⟩
    key := fun _ => rfl }

theorem HostEqual.commandStart {s t : State} (h : HostEqual s t) : HostEqual s.commandStart t.commandStart :=
  h.gated fun _ => { h.wipe with phase := rfl }

theorem HostEqual.commandClear {s t : State} (h : HostEqual s t) : HostEqual s.commandClear t.commandClear :=
  h.gated fun _ => { h.wipe with }

theorem HostEqual.command {s t : State} (h : HostEqual s t) (cmd : BitVec 4) : HostEqual (s.command cmd) (t.command cmd) := by
  unfold State.command
  split_ifs
  · exact h
  · exact h.commandStart
  · exact h.commandClear
  · exact h.markIgnored

theorem HostEqual.acknowledge {s t : State} (h : HostEqual s t) (d : Word) :
    HostEqual (if d.getLsbD 0 then s else { s with eventDone := false })
      (if d.getLsbD 0 then t else { t with eventDone := false }) := by
  split_ifs
  · exact h
  · exact { h with event := ⟨rfl, h.event.right⟩ }

/-- Settles O57: each instruction answers from, and writes, only what the two states share. -/
theorem hostSeesNoSecret : Obligations.HostSeesNoSecret := by
  intro i s t h
  obtain ⟨hev, hin⟩ := h.event
  obtain ⟨hkek, halg, hkb, hwl⟩ := h.operands
  cases i with
  | nop => exact ⟨s, t, rfl, rfl, h⟩
  | start => exact ⟨_, _, rfl, rfl, h.commandStart⟩
  | clear => exact ⟨_, _, rfl, rfl, h.commandClear⟩
  | reservedCmd _ => exact ⟨_, _, rfl, rfl, h.markIgnored⟩
  | wrCtrl d => exact ⟨_, _, rfl, rfl, h.command _⟩
  | wrRoStatus _ | wrRoDetail _ | wrRoProgress _ | wrRoKeyout _ _ | wrReserved _ _ => exact ⟨s, t, rfl, rfl, h⟩
  | wrInten d => exact ⟨_, _, rfl, rfl, { h with event := ⟨hev, rfl⟩ }⟩
  | wrEventDone d => exact ⟨_, _, rfl, rfl, h.acknowledge d⟩
  | wrKekHandle d => exact ⟨_, _, rfl, rfl, h.gated fun _ => { h with operands := ⟨rfl, halg, hkb, hwl⟩ }⟩
  | wrAlgId d => exact ⟨_, _, rfl, rfl, h.gated fun _ => { h with operands := ⟨hkek, rfl, hkb, hwl⟩ }⟩
  | wrKeybits d => exact ⟨_, _, rfl, rfl, h.gated fun _ => { h with operands := ⟨hkek, halg, rfl, hwl⟩ }⟩
  | wrWlen d => exact ⟨_, _, rfl, rfl, h.gated fun _ => { h with operands := ⟨hkek, halg, hkb, rfl⟩ }⟩
  | wrWin w d => exact ⟨_, _, rfl, rfl, h.gated fun _ => { h with }⟩
  | rdCtrl | rdWin _ | rdReserved _ => exact ⟨_, _, rfl, rfl, h.answerRead rfl⟩
  | rdStatus => exact ⟨_, _, rfl, rfl, h.answerRead h.statusWord_eq⟩
  | rdDetail => exact ⟨_, _, rfl, rfl, h.answerRead h.detailWord_eq⟩
  | rdProgress => exact ⟨_, _, rfl, rfl, h.answerRead h.progressWord_eq⟩
  | rdInten => exact ⟨_, _, rfl, rfl, h.answerRead (by rw [hin])⟩
  | rdEventDone => exact ⟨_, _, rfl, rfl, h.answerRead (by rw [hev])⟩
  | rdKekHandle => exact ⟨_, _, rfl, rfl, h.answerRead hkek⟩
  | rdAlgId => exact ⟨_, _, rfl, rfl, h.answerRead halg⟩
  | rdKeybits => exact ⟨_, _, rfl, rfl, h.answerRead hkb⟩
  | rdWlen => exact ⟨_, _, rfl, rfl, h.answerRead hwl⟩
  | rdKeyout w => exact ⟨_, _, rfl, rfl, h.answerRead (h.keyoutWord_eq w)⟩

end Sys2Proof.Machine
end

section
/-! SUPPORT. The value a read answers is fixed by the registers alone, never by what the host has read before (20_memory.md R68, R69). -/

namespace Sys2Proof.Machine

/-- A read answers one value and changes nothing else, whatever the host has read before. -/
theorem exec_read_of_any_reads (i : Instr) (s : State) (hi : isRead i = true) :
    ∃ v, ∀ vs, exec i { s with reads := vs } = .next (({ s with reads := vs } : State).answerRead v) := by
  cases i with
  | rdCtrl | rdWin _ | rdReserved _ => exact ⟨0, fun _ => rfl⟩
  | rdStatus => exact ⟨s.statusWord, fun _ => rfl⟩
  | rdDetail => exact ⟨s.detailWord, fun _ => rfl⟩
  | rdProgress => exact ⟨s.progressWord, fun _ => rfl⟩
  | rdInten => exact ⟨(BitVec.ofBool s.inten).setWidth 32, fun _ => rfl⟩
  | rdEventDone => exact ⟨(BitVec.ofBool s.eventDone).setWidth 32, fun _ => rfl⟩
  | rdKekHandle => exact ⟨s.kekHandle, fun _ => rfl⟩
  | rdAlgId => exact ⟨s.algId, fun _ => rfl⟩
  | rdKeybits => exact ⟨s.keybits, fun _ => rfl⟩
  | rdWlen => exact ⟨s.wlen, fun _ => rfl⟩
  | rdKeyout w => exact ⟨s.keyoutWord w, fun _ => rfl⟩
  | _ => cases hi

/-- Settles O6: the fetch of a transaction that decodes is its decoding. -/
theorem stepRunsDecodedInstruction : Obligations.StepRunsDecodedInstruction := step_host_of_decode

/-- Settles O26: the value does not depend on what has been read, so the second read answers it again. -/
theorem readsHaveNoSideEffect : Obligations.ReadsHaveNoSideEffect := by
  intro i s hi
  obtain ⟨v, hv⟩ := exec_read_of_any_reads i s hi
  exact ⟨v, hv s.reads, hv (v :: s.reads)⟩

end Sys2Proof.Machine
end

section
/-! SUPPORT. The decoder and the encoder are inverse to each other: the command word by its code, the access by its register, and the layout
of a table word (30_encoding.md R81 to R84). Then the statements on the encoding. -/

namespace Sys2Proof

/-! ### The command word (R83, R84) -/

/-- A mask within bits [3:0] sees the code of a command word alone. -/
theorem and_mask_eq_code (w : Word) (m : BitVec 4) : w &&& m.setWidth 32 = (w.setWidth 4 &&& m).setWidth 32 := by
  ext b hb
  by_cases h : b < 4
  · simp [h, hb]
  · simp [h, BitVec.getLsbD_of_ge m b (by omega)]

/-- The ignored bits [31:4] do not change what a command word decodes to. -/
theorem decodeCommand_eq_code (w : Word) : decodeCommand w = decodeCommand ((w.setWidth 4).setWidth 32) := by
  have h : w.extractLsb' 0 4 = ((w.setWidth 4).setWidth 32).extractLsb' 0 4 := by
    ext b hb
    simp [hb, show b < 32 by omega]
  simp only [decodeCommand, h]

theorem decodeCommand_reservedCode (cmd : BitVec 4) (h : reservedCode cmd = true) :
    decodeCommand (cmd.setWidth 32) = .reservedCmd cmd := by
  revert cmd; decide

/-- A decoded command encodes as the word's code, its ignored bits zero. -/
theorem encode_decodeCommand (w : Word) : encode (decodeCommand w) = .command (w &&& 0xF) := by
  have codes : ∀ cmd : BitVec 4, encode (decodeCommand (cmd.setWidth 32)) = .command ((cmd &&& 0xF).setWidth 32) := by decide
  rw [decodeCommand_eq_code, codes]
  exact congrArg Transaction.command (and_mask_eq_code w 0xF).symm

/-! ### The access by its register (R82) -/

/-- The instruction of a write to this register; the reserved access alone carries its offset. -/
def Reg.writeInstr (off : Offset) (d : Word) : Reg → Instr
  | .ctrl => .wrCtrl d
  | .status => .wrRoStatus d
  | .detail => .wrRoDetail d
  | .progress => .wrRoProgress d
  | .inten => .wrInten d
  | .eventDone => .wrEventDone d
  | .kekHandle => .wrKekHandle d
  | .algId => .wrAlgId d
  | .keybits => .wrKeybits d
  | .wlen => .wrWlen d
  | .win w => .wrWin w d
  | .keyout w => .wrRoKeyout w d
  | .reserved => .wrReserved off d

/-- The instruction of a read of this register; the reserved access alone carries its offset. -/
def Reg.readInstr (off : Offset) : Reg → Instr
  | .ctrl => .rdCtrl
  | .status => .rdStatus
  | .detail => .rdDetail
  | .progress => .rdProgress
  | .inten => .rdInten
  | .eventDone => .rdEventDone
  | .kekHandle => .rdKekHandle
  | .algId => .rdAlgId
  | .keybits => .rdKeybits
  | .wlen => .rdWlen
  | .win w => .rdWin w
  | .keyout w => .rdKeyout w
  | .reserved => .rdReserved off

theorem decodeWrite_eq (off : Offset) (d : Word) : decodeWrite off d = (regOfIndex (off.toNat / 4)).writeInstr off d := by
  rw [← Offset.index_eq]; rfl

theorem decodeRead_eq (off : Offset) : decodeRead off = (regOfIndex (off.toNat / 4)).readInstr off := by
  rw [← Offset.index_eq]; rfl

/-- An aligned access of 32 bits decodes to the write and the read of the register its index selects. -/
theorem decode_access (off : Offset) (d : Word) (reg : Reg) (ha : off.toNat % 4 = 0) (hr : regOfIndex (off.toNat / 4) = reg) :
    decode (.write off 32 d) = .ok (reg.writeInstr off d) ∧ decode (.read off 32) = .ok (reg.readInstr off) := by
  subst hr
  exact ⟨(decode_write_ok_iff _ _ _ _).mpr ⟨⟨rfl, ha⟩, (decodeWrite_eq off d).symm⟩,
    (decode_read_ok_iff _ _ _).mpr ⟨⟨rfl, ha⟩, (decodeRead_eq off).symm⟩⟩

/-- Word `w` of a window inside the register map does not wrap. -/
theorem wordOffset_toNat (base w : Nat) (h : base + 4 * w < 0x1000) : (wordOffset base w).toNat = base + 4 * w := by
  rw [wordOffset, BitVec.toNat_ofNat, Nat.mod_eq_of_lt h]

theorem decode_access_win (w : Fin 10) (d : Word) :
    decode (.write (wordOffset 0x040 w) 32 d) = .ok (.wrWin w d) ∧ decode (.read (wordOffset 0x040 w) 32) = .ok (.rdWin w) := by
  have ho := wordOffset_toNat 0x040 w (by omega)
  refine decode_access _ d (.win w) (by omega) ?_
  rw [← regOfIndex_win, ho]
  congr 1
  omega

theorem decode_access_keyout (w : Fin 8) (d : Word) :
    decode (.write (wordOffset 0x080 w) 32 d) = .ok (.wrRoKeyout w d) ∧
    decode (.read (wordOffset 0x080 w) 32) = .ok (.rdKeyout w) := by
  have ho := wordOffset_toNat 0x080 w (by omega)
  refine decode_access _ d (.keyout w) (by omega) ?_
  rw [← regOfIndex_keyout, ho]
  congr 1
  omega

theorem decode_access_reserved (off : Offset) (d : Word) (h : reservedOffset off = true) :
    decode (.write off 32 d) = .ok (.wrReserved off d) ∧ decode (.read off 32) = .ok (.rdReserved off) := by
  obtain ⟨ha, hr⟩ := (reservedOffset_iff off).mp h
  exact decode_access off d .reserved ha (by rwa [← Offset.index_eq])

/-- Encoding an aligned access's instruction gives the access back: the register fixes the offset. -/
theorem encode_access (off : Offset) (d : Word) (ha : off.toNat % 4 = 0) :
    encode (decodeWrite off d) = .write off 32 d ∧ encode (decodeRead off) = .read off 32 := by
  have ho : off = BitVec.ofNat 12 (4 * (off.toNat / 4)) := by
    rw [Nat.mul_div_cancel' (Nat.dvd_of_mod_eq_zero ha), BitVec.ofNat_toNat, BitVec.setWidth_eq]
  have hk := index_of_reg (off.toNat / 4)
  rw [decodeWrite_eq, decodeRead_eq]
  cases hr : regOfIndex (off.toNat / 4) with
  | reserved => exact ⟨rfl, rfl⟩
  | win w =>
    rw [hr] at hk
    have hw : wordOffset 0x040 w = off := by rw [ho, hk, wordOffset]; congr 1; omega
    rw [← hw]
    exact ⟨rfl, rfl⟩
  | keyout w =>
    rw [hr] at hk
    have hw : wordOffset 0x080 w = off := by rw [ho, hk, wordOffset]; congr 1; omega
    rw [← hw]
    exact ⟨rfl, rfl⟩
  | _ =>
    rw [hr] at hk
    rw [hk] at ho
    rw [ho]
    exact ⟨rfl, rfl⟩

/-! ### The table word -/

/-- The direction bit, the offset and the data of a write's table word are apart. -/
theorem busTransaction_write (off : Offset) (d : Word) :
    busTransaction (d.toNat <<< 16 ||| (1 <<< 12 ||| off.toNat)) = .write off 32 d := by
  have hoff := off.isLt
  have hkey : 1 <<< 12 ||| off.toNat = 0x1000 + off.toNat := (Nat.shiftLeft_add_eq_or_of_lt hoff 1).symm
  have hword : d.toNat <<< 16 ||| (0x1000 + off.toNat) = d.toNat * 0x10000 + (0x1000 + off.toNat) := by
    rw [← Nat.shiftLeft_add_eq_or_of_lt (by omega), Nat.shiftLeft_eq]
  have hdir : (d.toNat * 0x10000 + (0x1000 + off.toNat)).testBit 12 = true := by
    rw [Nat.testBit_eq_decide_div_mod_eq, decide_eq_true_eq]
    omega
  have hdata : (d.toNat * 0x10000 + (0x1000 + off.toNat)) >>> 16 = d.toNat := by
    rw [Nat.shiftRight_eq_div_pow]
    omega
  have hofs : BitVec.ofNat 12 (d.toNat * 0x10000 + (0x1000 + off.toNat)) = off := by
    apply BitVec.eq_of_toNat_eq
    rw [BitVec.toNat_ofNat]
    omega
  rw [hkey, hword, busTransaction, if_pos hdir, hofs, hdata, BitVec.ofNat_toNat, BitVec.setWidth_eq]

theorem busTransaction_read (off : Offset) : busTransaction off.toNat = .read off 32 := by
  rw [busTransaction, if_neg (by simp [Nat.testBit_lt_two_pow off.isLt]), BitVec.ofNat_toNat, BitVec.setWidth_eq]

/-- The layout of a table word loses nothing of a transaction in the format (log 6). -/
theorem tableTransaction_tableWord (tr : Transaction) (h : tr.inFormat = true) :
    tableTransaction tr.tableWord.1 tr.tableWord.2 = tr := by
  cases tr with
  | read off size =>
    obtain ⟨rfl, -⟩ : size = 32 ∧ off.toNat % 4 = 0 := by simpa [Transaction.inFormat] using h
    have hv : off.toNat % 2 ^ 16 = off.toNat := Nat.mod_eq_of_lt (off.isLt.trans (by decide))
    simp only [Transaction.tableWord, tableTransaction, hv]
    exact busTransaction_read off
  | write off size d =>
    obtain ⟨rfl, -⟩ : size = 32 ∧ off.toNat % 4 = 0 := by simpa [Transaction.inFormat] using h
    have hd : d.toNat <<< 16 < 2 ^ 48 := by rw [Nat.shiftLeft_eq]; omega
    have hkey : 1 <<< 12 ||| off.toNat < 2 ^ 48 := Nat.or_lt_two_pow (by decide) (off.isLt.trans (by decide))
    simp only [Transaction.tableWord, tableTransaction, Nat.mod_eq_of_lt (Nat.or_lt_two_pow hd hkey)]
    exact busTransaction_write off d
  | command w =>
    simp [Transaction.tableWord, tableTransaction, Nat.mod_eq_of_lt w.isLt]

theorem decodeTableWord_tableWord (tr : Transaction) (i : Instr) (h : decode tr = .ok i) :
    decodeTableWord tr.tableWord.1 tr.tableWord.2 = some i := by
  rw [decodeTableWord, tableTransaction_tableWord tr ((decode_isOk_iff tr).mp ⟨i, h⟩), h]

/-! ### The statements -/

/-- The decoder undoes the encoder on every well-formed instruction. -/
theorem decode_encode (i : Instr) (h : i.WellFormed) : decode (encode i) = .ok i := by
  cases i with
  | nop | start | clear => rfl
  | reservedCmd cmd => exact (decode_command_ok_iff _ _).mpr (decodeCommand_reservedCode cmd h).symm
  | wrCtrl _ | wrRoStatus _ | wrRoDetail _ | wrRoProgress _ | wrInten _ | wrEventDone _ => rfl
  | wrKekHandle _ | wrAlgId _ | wrKeybits _ | wrWlen _ => rfl
  | wrWin w d => exact (decode_access_win w d).1
  | wrRoKeyout w d => exact (decode_access_keyout w d).1
  | wrReserved off d => exact (decode_access_reserved off d h).1
  | rdCtrl | rdStatus | rdDetail | rdProgress | rdInten | rdEventDone => rfl
  | rdKekHandle | rdAlgId | rdKeybits | rdWlen => rfl
  | rdWin w => exact (decode_access_win w 0).2
  | rdKeyout w => exact (decode_access_keyout w 0).2
  | rdReserved off => exact (decode_access_reserved off 0 h).2

/-- Settles O1: the transaction by the instruction's register or code, the table word by its layout. -/
theorem decodeEncodeRoundTrip : Obligations.DecodeEncodeRoundTrip := by
  intro i h
  have hd := decode_encode i h
  exact ⟨hd, decodeTableWord_tableWord _ i hd⟩

/-- Settles O2: an access is recovered from its register, a command word from its code. -/
theorem encodeDecodeRoundTrip : Obligations.EncodeDecodeRoundTrip := by
  intro tr i h
  refine ⟨decode_wellFormed tr i h, ?_⟩
  cases tr with
  | read off size =>
    obtain ⟨⟨rfl, ha⟩, rfl⟩ := (decode_read_ok_iff off size i).mp h
    exact (encode_access off 0 ha).2
  | write off size d =>
    obtain ⟨⟨rfl, ha⟩, rfl⟩ := (decode_write_ok_iff off size d i).mp h
    exact (encode_access off d ha).1
  | command w =>
    rw [(decode_command_ok_iff w i).mp h]
    exact encode_decodeCommand w

/-- Settles O4: every mask of R84 sees the four bits of the code alone, and each of the 16 codes has its row. -/
theorem commandCodes : Obligations.CommandCodes := by
  intro w
  have mF : w &&& 0xF = (w.setWidth 4 &&& 0xF).setWidth 32 := and_mask_eq_code w 0xF
  have mC : w &&& 0xC = (w.setWidth 4 &&& 0xC).setWidth 32 := and_mask_eq_code w 0xC
  have m8 : w &&& 0x8 = (w.setWidth 4 &&& 0x8).setWidth 32 := and_mask_eq_code w 0x8
  simp only [mF, mC, m8, decode, Except.ok.injEq, decodeCommand_eq_code w]
  generalize w.setWidth 4 = code
  revert code
  decide

/-- Settles O5: the register of each index, and its write and read. -/
theorem offsetSelectsRegister : Obligations.OffsetSelectsRegister := by
  intro off d ha k
  have access (reg : Reg) (hr : regOfIndex k = reg) := decode_access off d reg ha hr
  exact ⟨fun hk => access .ctrl (hk ▸ rfl), fun hk => access .status (hk ▸ rfl), fun hk => access .detail (hk ▸ rfl),
    fun hk => access .progress (hk ▸ rfl), fun hk => access .inten (hk ▸ rfl), fun hk => access .eventDone (hk ▸ rfl),
    fun hk => access .kekHandle (hk ▸ rfl), fun hk => access .algId (hk ▸ rfl), fun hk => access .keybits (hk ▸ rfl),
    fun hk => access .wlen (hk ▸ rfl), fun w hk => access (.win w) (hk ▸ regOfIndex_win w),
    fun w hk => access (.keyout w) (hk ▸ regOfIndex_keyout w), fun hk => access .reserved ((regOfIndex_reserved k).mpr hk)⟩

/-- Settles O3: the decoder evaluated on each word. -/
theorem specWordsDecode : Obligations.SpecWordsDecode := ⟨rfl, rfl, rfl, rfl, rfl, rfl, rfl, rfl⟩

end Sys2Proof
end

section
/-! SUPPORT. What a step does with the next event of the agenda, where its agent's step is enabled and where it is not (30_encoding.md R96,
42_engine_interface.md R183, R184), and the write to WIN. -/

namespace Sys2Proof.Machine

theorem step_engineAccept (s : State) (rest : List Event) (h : s.agenda = .engineAccept :: rest) :
    step s = .next (engineAccept { s with agenda := rest }) := by
  rw [step, h]

theorem step_engineAnswer (s : State) (rsp : EngResponse) (rest : List Event) (h : s.agenda = .engineAnswer rsp :: rest) :
    step s = .next (engineAnswer rsp { s with agenda := rest }) := by
  rw [step, h]

theorem step_reset (s : State) (rest : List Event) (h : s.agenda = .reset :: rest) :
    step s = .next ({ s with agenda := rest } : State).takeReset := by
  rw [step, h]

/-- A sequencer event where no step is enabled is passed over: in IDLE, and in WAIT with no response. -/
theorem seqStep_disabled (s : State) (h : s.seqEnabled = false) : seqStep s = .next s := by
  unfold seqStep
  cases hp : s.phase with
  | idle => rfl
  | wait =>
    have hr : s.engine.response = none := by simpa [State.seqEnabled, State.engRspReady, State.engRspValid, hp] using h
    simp only [hr]
  | _ => simp [State.seqEnabled, hp] at h

/-- ACCEPT needs a request and an empty engine (R183). -/
theorem engineAccept_disabled (s : State) (h : s.req = none ∨ s.engine.pending.isSome ∨ s.engine.response.isSome) :
    engineAccept s = s := by
  have he : s.acceptEnabled = false := by
    rcases h with h | h | h <;> simp [State.acceptEnabled, State.engReqValid, Option.isNone_eq_false_iff.mpr, h]
  simp [engineAccept, he]

theorem engineAccept_enabled (s : State) (q : EngRequest) (hq : s.req = some q) (hp : s.engine.pending = none)
    (hr : s.engine.response = none) : engineAccept s = { s with req := none, engine := ⟨some q, none⟩ } := by
  simp [engineAccept, State.acceptEnabled, State.engReqValid, hq, hp, hr]

/-- ANSWER needs a request taken and no response presented (R184). -/
theorem engineAnswer_disabled (rsp : EngResponse) (s : State) (h : s.engine.pending = none ∨ s.engine.response.isSome) :
    engineAnswer rsp s = s := by
  have he : s.answerEnabled = false := by
    rcases h with h | h <;> simp [State.answerEnabled, h]
  simp [engineAnswer, he]

theorem engineAnswer_enabled (rsp : EngResponse) (s : State) (hp : s.engine.pending.isSome) (hr : s.engine.response = none) :
    engineAnswer rsp s = { s with engine := ⟨none, some rsp⟩ } := by
  simp [engineAnswer, State.answerEnabled, hp, hr]

/-- Settles O8: each event by its agent, each agent's step where it is enabled and where it is not. -/
theorem stepTakesTheAgentsStep : Obligations.StepTakesTheAgentsStep := by
  intro s rest q rsp
  let taken : State := { s with agenda := rest }
  refine ⟨fun ha => ?empty, fun ha hd => ?seqDisabled, fun ha hd => ?acceptDisabled, fun ha hd => ?answerDisabled,
    fun ha hp => ?validate, fun ha hp => ?issue, fun ha hp hr => ?respond, fun ha hp => ?final,
    fun ha hq hp hr => ?accept, fun ha hp hr => ?answer, fun ha => ?reset⟩
  case empty => rw [step, ha]
  case seqDisabled => exact (step_sequencer s rest ha).trans (seqStep_disabled taken hd)
  case acceptDisabled => exact (step_engineAccept s rest ha).trans (congrArg _ (engineAccept_disabled taken hd))
  case answerDisabled => exact (step_engineAnswer s rsp rest ha).trans (congrArg _ (engineAnswer_disabled rsp taken hd))
  case validate => exact (step_sequencer s rest ha).trans (seqStep_validate taken hp)
  case issue => exact step_issue s rest ha hp
  case respond => exact step_respond s rest rsp ha hp hr
  case final => exact (step_sequencer s rest ha).trans (seqStep_final taken hp)
  case accept => exact (step_engineAccept s rest ha).trans (congrArg _ (engineAccept_enabled taken q hq hp hr))
  case answer => exact (step_engineAnswer s rsp rest ha).trans (congrArg _ (engineAnswer_enabled rsp taken hp hr))
  case reset => exact step_reset s rest ha

/-- Settles O20: the gate, then the four lanes and the frame of the store into WIN. -/
theorem writeWinWord : Obligations.WriteWinWord := by
  intro s w d
  have he : exec (.wrWin w d) s = .next (s.gated fun s => { s with win := storeWinWord s.win w d }) := rfl
  rw [he]
  refine ⟨fun hp => ?_, fun hp => ⟨{ s with win := storeWinWord s.win w d }, ?_, rfl, ?_, ?_⟩⟩
  · rw [s.gated_busy _ hp]; rfl
  · rw [s.gated_idle _ hp]
  · exact storeWinWord_lane s.win w d
  · exact storeWinWord_frame s.win w d

end Sys2Proof.Machine
end

section
/-! SUPPORT. The host's accesses (40_host_commands.md R101 to R129): what each command, write and read does in IDLE and while BUSY, and the
fields of the words a read answers. -/

namespace Sys2Proof.Machine

/-! ### Accesses outside the format (R129) -/

theorem inFormat_read_iff (off : Offset) (size : Nat) :
    (Transaction.read off size).inFormat = true ↔ size = 32 ∧ off.toNat % 4 = 0 := by
  simp [Transaction.inFormat]

theorem inFormat_write_eq_read (off : Offset) (size : Nat) (d : Word) :
    (Transaction.write off size d).inFormat = (Transaction.read off size).inFormat := rfl

/-- Settles O7: a host transaction is refused outside the format and completes in it. -/
theorem accessOutsideFormatIsRefused : Obligations.AccessOutsideFormatIsRefused := by
  intro s rest off size d
  constructor
  · intro h
    have hf : (Transaction.read off size).inFormat = false := by
      rw [Bool.eq_false_iff, ne_eq, inFormat_read_iff]
      omega
    exact ⟨step_host_refused _ (.read off size) rest rfl hf, step_host_refused _ (.write off size d) rest rfl hf⟩
  · intro h
    have hf := (inFormat_read_iff off size).mpr h
    exact ⟨step_host_next _ (.read off size) rest rfl hf, step_host_next _ (.write off size d) rest rfl hf⟩

/-! ### Gated instructions (R101) -/

theorem next_gated_idle (s : State) (f : State → State) (hp : s.phase = .idle) :
    (.next (s.gated f) : StepResult) = .next (f s) := by
  rw [s.gated_idle f hp]

theorem next_gated_busy (s : State) (f : State → State) (hp : s.phase ≠ .idle) :
    (.next (s.gated f) : StepResult) = .next s.markIgnored := by
  rw [s.gated_busy f hp]

/-! ### The commands (R102 to R106) -/

/-- A write to CTRL performs the command its data word decodes to (R102). -/
theorem exec_wrCtrl (w : Word) (s : State) : exec (.wrCtrl w) s = exec (decodeCommand w) s := by
  have he : exec (.wrCtrl w) s = .next (s.command (w.extractLsb' 0 4)) := rfl
  simp only [he, State.command, decodeCommand]
  split_ifs <;> rfl

theorem decodeCommand_of_decode {w : Word} {i : Instr} (h : decode (.command w) = .ok i) : decodeCommand w = i :=
  ((decode_command_ok_iff w i).mp h).symm

theorem decode_reservedCode (w : Word) (cmd : BitVec 4) (hc : 3 ≤ cmd.toNat) (hw : w.setWidth 4 = cmd) :
    decode (.command w) = .ok (.reservedCmd cmd) := by
  rw [decode_command_ok_iff, decodeCommand_eq_code, hw, decodeCommand_reservedCode cmd (by simpa [reservedCode] using hc)]

/-- Settles O11: the code 0 is NOP's. -/
theorem nopChangesNothing : Obligations.NopChangesNothing := by
  intro s
  exact ⟨rfl, fun w => (commandCodes w).1⟩

/-- Settles O12: START is gated, and in IDLE it wipes the working state. -/
theorem startCommand : Obligations.StartCommand := by
  intro s
  refine ⟨fun w => have ⟨_, hstart, _⟩ := commandCodes w; hstart, fun hp => ?busy,
    fun hp => ⟨{ s.wipe with phase := .validate }, ?idle, rfl, ?status, BitVec.zero_and, ?progress, Bool.and_false _, ?keyout⟩⟩
  case busy => exact next_gated_busy s _ hp
  case idle => exact next_gated_idle s _ hp
  case status =>
    simp only [State.statusWord, State.busy, State.wipe]
    rfl
  case progress => exact State.progressWord_of_positionZero ⟨rfl, rfl, rfl, rfl, rfl⟩
  case keyout => exact fun w => State.keyoutWord_of_not_ok _ w nofun

/-- Settles O13: CLEAR is gated, and in IDLE it wipes the working state and WIN. -/
theorem clearCommand : Obligations.ClearCommand := by
  intro s
  refine ⟨fun w => have ⟨_, _, hclear, _⟩ := commandCodes w; hclear, fun hp => ?busy,
    fun hp => ⟨{ s.wipe with win := Vector.replicate 40 0 }, ?idle, rfl, ?status, BitVec.zero_and, ?progress, rfl, ?keyout⟩⟩
  case busy => exact next_gated_busy s _ hp
  case idle => exact next_gated_idle s _ hp
  case status => simp [State.statusWord, State.busy, hp, Phase.code, ResultCode.code]
  case progress => exact State.progressWord_of_positionZero ⟨rfl, rfl, rfl, rfl, rfl⟩
  case keyout => exact fun w => State.keyoutWord_of_not_ok _ w nofun

/-- Settles O14: the instruction carries its code unchanged. -/
theorem reservedCommandOnlySetsIgnored : Obligations.ReservedCommandOnlySetsIgnored := by
  intro s cmd hc
  exact ⟨rfl, fun w hw => decode_reservedCode w cmd hc hw⟩

/-- Settles O15: the command the data word decodes to, and what that command does. -/
theorem writeCtrlPerformsTheCommand : Obligations.WriteCtrlPerformsTheCommand := by
  intro s w
  have performs {i : Instr} (hd : decode (.command w) = .ok i) : exec (.wrCtrl w) s = exec i s := by
    rw [exec_wrCtrl, decodeCommand_of_decode hd]
  obtain ⟨hnop, -⟩ := commandCodes w
  obtain ⟨hstart, -, startIdle⟩ := startCommand s
  obtain ⟨hclear, -, clearIdle⟩ := clearCommand s
  refine ⟨rfl, fun hw => ?nop, fun hw => ?start, fun hw => ?clear, fun cmd hc hw => ?reserved⟩
  case nop => exact ⟨performs (hnop hw), performs (hnop hw)⟩
  case start =>
    have he := performs (hstart w hw)
    refine ⟨he, fun hp => ?_⟩
    obtain ⟨t, ht, rfl, -⟩ := startIdle hp
    exact ⟨_, he.trans ht, rfl, rfl⟩
  case clear =>
    have he := performs (hclear w hw)
    refine ⟨he, fun hp => ?_⟩
    obtain ⟨t, ht, rfl, -⟩ := clearIdle hp
    exact ⟨_, he.trans ht, hp, rfl⟩
  case reserved =>
    have he := performs (decode_reservedCode w cmd hc hw)
    exact ⟨he, he⟩

/-! ### The writes (R107 to R115) -/

/-- A write to EVENT_DONE keeps the event exactly where bit 0 of the data is 1 (R109). -/
theorem exec_wrEventDone (d : Word) (s : State) :
    exec (.wrEventDone d) s = .next { s with eventDone := d.getLsbD 0 && s.eventDone } := by
  have he : exec (.wrEventDone d) s = .next (if d.getLsbD 0 then s else { s with eventDone := false }) := rfl
  rw [he]
  cases d.getLsbD 0 <;> rfl

/-- Settles O16: these arms answer the state itself. -/
theorem ineffectiveWrites : Obligations.IneffectiveWrites := by
  intro s d w off
  exact ⟨rfl, rfl, rfl, rfl, rfl⟩

/-- Settles O17: the write is not gated, and irq is a function of the state. -/
theorem writeInten : Obligations.WriteInten := by
  intro s d
  exact ⟨{ s with inten := d.getLsbD 0 }, rfl, rfl, rfl⟩

/-- Settles O18: bit 0 of the data masks the event. -/
theorem writeEventDone : Obligations.WriteEventDone := by
  intro s d
  rw [exec_wrEventDone]
  refine ⟨fun h => ⟨{ s with eventDone := false }, ?_, rfl, Bool.and_false _⟩, fun h => ?_⟩
  · rw [h, Bool.false_and]
  · rw [h, Bool.true_and]

/-- Settles O19: each of the four writes is gated. -/
theorem writeOperandRegisters : Obligations.WriteOperandRegisters := by
  intro s d
  constructor
  · intro hp
    exact ⟨next_gated_idle s _ hp, next_gated_idle s _ hp, next_gated_idle s _ hp, next_gated_idle s _ hp⟩
  · intro hp
    exact ⟨next_gated_busy s _ hp, next_gated_busy s _ hp, next_gated_busy s _ hp, next_gated_busy s _ hp⟩

/-! ### The words a read answers (R116 to R128) -/

theorem zext_ofBool (b : Bool) : (BitVec.ofBool b).setWidth 32 = if b then 1 else 0 := by
  cases b <;> rfl

/-- Settles O21: each value is the stored register, a zero-extended bit, or 0. -/
theorem readPlainRegisters : Obligations.ReadPlainRegisters := by
  intro s w off
  rw [← zext_ofBool, ← zext_ofBool]
  exact ⟨rfl, rfl, rfl, rfl, rfl, rfl, rfl, rfl, rfl⟩

/-- Settles O22: STATUS is its fields side by side, and in the invariant a run in progress has no result. -/
theorem readStatus : Obligations.ReadStatus := by
  intro s
  have hbusy : s.statusWord.getLsbD 0 = decide (s.phase ≠ .idle) := by
    simp only [State.statusWord, BitVec.getLsbD_setWidth, BitVec.getLsbD_append]
    simp [State.busy, bne, beq_eq_decide]
  have hignored : s.statusWord.getLsbD 1 = s.ignored := by
    simp only [State.statusWord, BitVec.getLsbD_setWidth, BitVec.getLsbD_append]
    simp
  have hunused : s.statusWord.extractLsb' 11 21 = 0 := by
    ext m hm
    simp [State.statusWord, BitVec.getLsbD_of_ge]
  have hfields : s.statusWord.extractLsb' 2 2 = 0 ∧ s.statusWord.extractLsb' 4 4 = s.result.code ∧
      s.statusWord.extractLsb' 8 3 = s.phase.code := by
    simp (disch := omega) only [State.statusWord, BitVec.extractLsb'_setWidth_of_le, BitVec.extractLsb'_append_eq_of_le,
      BitVec.extractLsb'_append_eq_of_add_le, Nat.reduceSub, BitVec.extractLsb'_eq_self, and_self]
  obtain ⟨hreserved, hresult, hphase⟩ := hfields
  refine ⟨s.statusWord, rfl, hbusy, hignored, hreserved, hresult, hphase, hunused, fun hinv hp => ?_⟩
  rw [hresult, (hinv.running hp).1]
  rfl

/-- Settles O24: PROGRESS is its fields side by side. -/
theorem readProgress : Obligations.ReadProgress := by
  intro s
  refine ⟨s.progressWord, rfl, ?_⟩
  simp (disch := omega) only [State.progressWord, BitVec.extractLsb'_append_eq_of_le, BitVec.extractLsb'_append_eq_of_add_le,
    Nat.reduceSub, BitVec.extractLsb'_eq_self, and_self]

theorem detailWord_live (s : State) {start len : Nat} (h : detailMask.extractLsb' start len = BitVec.allOnes len) :
    s.detailWord.extractLsb' start len = s.detail.extractLsb' start len := by
  rw [State.detailWord, BitVec.extractLsb'_and, h, BitVec.and_allOnes]

theorem detailWord_reserved (s : State) {start len : Nat} (h : detailMask.extractLsb' start len = 0) :
    s.detailWord.extractLsb' start len = 0 := by
  rw [State.detailWord, BitVec.extractLsb'_and, h]
  exact BitVec.and_zero

/-- Settles O23: the mask is all ones on each field of R43 and 0 between them. -/
theorem readDetail : Obligations.ReadDetail := by
  intro s
  exact ⟨s.detailWord, rfl, detailWord_live s rfl, detailWord_reserved s rfl, detailWord_live s rfl, detailWord_reserved s rfl,
    detailWord_live s rfl, detailWord_reserved s rfl⟩

/-- Lane m of KEYOUTw is byte 4w + m of the key output (20_memory.md R63). -/
theorem keyoutWord_lane (s : State) (w : Fin 8) (m : Nat) (hm : m < 4) :
    (s.keyoutWord w).extractLsb' (8 * m) 8 = s.keyoutByte (4 * w.val + m) :=
  lane_laneWord (fun k => s.keyoutByte (4 * w.val + k.val)) ⟨m, hm⟩

/-- Settles O25: each lane is the key's byte where a key is released, and 0 elsewhere. -/
theorem readKeyout : Obligations.ReadKeyout := by
  intro s w
  refine ⟨s.keyoutWord w, rfl, fun m hm => ?_⟩
  rw [keyoutWord_lane s w m hm, State.keyoutByte]
  constructor
  · intro hok hb x hx
    rw [if_pos ⟨hok, hb⟩, State.keyByte, hx]
    rfl
  · exact fun h => if_neg h

/-! ### All host instructions while BUSY (R101) -/

/-- While BUSY a command does nothing or sets IGNORED. -/
theorem State.command_busy (s : State) (cmd : BitVec 4) (hp : s.phase ≠ .idle) :
    s.command cmd = s ∨ s.command cmd = s.markIgnored := by
  rcases s.command_cases cmd with ⟨-, e⟩ | ⟨-, hi, -⟩ | ⟨-, hi, -⟩ | ⟨-, e⟩
  · exact .inl e
  · exact absurd hi hp
  · exact absurd hi hp
  · exact .inr e

/-- Settles O28: while BUSY a gated write is IGNORED, and no other instruction writes the run's state. -/
theorem hostCannotDisturbARun : Obligations.HostCannotDisturbARun := by
  intro i s hp
  cases i with
  | start | clear | wrKekHandle _ | wrAlgId _ | wrKeybits _ | wrWlen _ | wrWin _ _ =>
    exact ⟨s.markIgnored, next_gated_busy s _ hp, rfl⟩
  | wrCtrl d =>
    rcases s.command_busy (d.extractLsb' 0 4) hp with e | e
    · exact ⟨s, congrArg _ e, rfl⟩
    · exact ⟨s.markIgnored, congrArg _ e, rfl⟩
  | wrEventDone d => exact ⟨_, exec_wrEventDone d s, rfl⟩
  | nop | reservedCmd _ | wrRoStatus _ | wrRoDetail _ | wrRoProgress _ | wrRoKeyout _ _ | wrReserved _ _ | wrInten _ =>
    exact ⟨_, rfl, rfl⟩
  | rdCtrl | rdStatus | rdDetail | rdProgress | rdInten | rdEventDone | rdKekHandle | rdAlgId | rdKeybits | rdWlen =>
    exact ⟨_, rfl, rfl⟩
  | rdWin _ | rdKeyout _ | rdReserved _ => exact ⟨_, rfl, rfl⟩

/-- While BUSY a gated write or a reserved command only sets IGNORED (R101, R106). -/
theorem HostEffect.eq_markIgnored {i : Instr} {s t : State} (h : HostEffect i s t) (hp : s.phase ≠ .idle)
    (hi : isGated i = true ∨ isReservedCommand i = true) : t = s.markIgnored := by
  cases h with
  | ignored _ => rfl
  | nothing _ hr hg => exact absurd hi (by simp [hr, Bool.eq_false_iff.mpr hg])
  | read v hr => exact absurd hi (by simp [isRead_plain i hr])
  | inten d e | ack d e _ =>
    subst e
    simp [isGated, isReservedCommand, isStartOrClear, commandCode] at hi
  | kekHandle _ _ hidle | algId _ _ hidle | keybits _ _ hidle | wlen _ _ hidle | win _ _ _ hidle | start _ hidle | clear _ hidle =>
    exact absurd hidle hp

/-- Settles O27: by what the instruction can do. -/
theorem busyGating : Obligations.BusyGating := by
  intro i s hi hp
  obtain ⟨t, hx, he⟩ := exec_effect i s hi
  have onlyIgnored (hc : isGated i = true ∨ isReservedCommand i = true) : exec i s = .next s.markIgnored :=
    hx.trans (congrArg _ (he.eq_markIgnored hp hc))
  refine ⟨fun hg => onlyIgnored (.inl hg), fun hr => onlyIgnored (.inr hr), fun hg hr => ⟨t, hx, ?_⟩, fun d => rfl,
    fun d => exec_wrEventDone d s, ?_⟩
  · rw [he.ignored_eq]
    simp [hg, hr, hp]
  · obtain ⟨t', hx', ht'⟩ := hostCannotDisturbARun i s hp
    rw [ht'] at hx'
    exact ⟨_, hx', rfl, rfl, rfl, rfl, rfl⟩

end Sys2Proof.Machine
end

section
/-! SUPPORT. The order of the rounds: a position in range and the pair of 41_unwrap_sequencer.md R147 it is at, and `advance()` from it. -/

namespace Sys2Proof.Machine

/-- In range exactly the last pair, (0, 1), has no pair after it (R147). -/
theorem State.inRange.pairsLeft_eq_one_iff {s : State} (h : s.inRange) :
    s.pairsLeft = 1 ↔ ¬ (1 < s.i.toNat ∨ 0 < s.j.toNat) := by
  obtain ⟨hn, -, -, hi, -⟩ := h
  simp only [State.pairsLeft]
  constructor
  · intro hlast
    have hj : s.n.toNat * s.j.toNat = 0 := by omega
    have := (Nat.mul_eq_zero.mp hj).resolve_left (by omega)
    omega
  · intro hlast
    have hj : s.j.toNat = 0 := by omega
    rw [hj]
    omega

/-- A position in range is that of the pair its `pairsLeft` counts (R147, R150). -/
theorem State.inRange.pair {s : State} (h : s.inRange) :
    (s.j.toNat, s.i.toNat) = pairOf s.n.toNat (6 * s.n.toNat - s.pairsLeft) := by
  obtain ⟨h1, h6⟩ := h.pairsLeft_le
  have ⟨_, hn4, _⟩ := h
  let issued : State := { s with t := roundCounter s.n s.j s.i, calls := BitVec.ofNat 8 (6 * s.n.toNat + 1 - s.pairsLeft) }
  have hcalls : issued.calls.toNat = 6 * s.n.toNat + 1 - s.pairsLeft := by
    rw [BitVec.toNat_ofNat]
    omega
  have hlast : issued.lastIssuedHere := by
    refine ⟨h, h.roundCounter_toNat, ?_⟩
    change issued.calls.toNat + s.pairsLeft = 6 * s.n.toNat + 1
    omega
  have hk : 6 * s.n.toNat - s.pairsLeft = issued.calls.toNat - 1 := by omega
  rw [hk]
  exact hlast.pair

/-- The position of the k-th pair, counted from 0, is in range, and 6N - k pairs are left. -/
theorem State.inRange_of_pair {s : State} {k : Nat} (hn : 1 ≤ s.n.toNat) (hn4 : s.n.toNat ≤ 4) (hk : k < 6 * s.n.toNat)
    (hp : (s.j.toNat, s.i.toNat) = pairOf s.n.toNat k) : s.inRange ∧ s.pairsLeft = 6 * s.n.toNat - k := by
  obtain ⟨hj, hi⟩ := Prod.mk.inj hp
  have hmod : k % s.n.toNat < s.n.toNat := Nat.mod_lt _ hn
  have hdiv : k / s.n.toNat < 6 := Nat.div_lt_of_lt_mul (by rwa [Nat.mul_comm])
  have hk' := Nat.div_add_mod k s.n.toNat
  have hle := Nat.mul_le_mul_left s.n.toNat (Nat.le_of_lt_succ hdiv)
  simp only [State.inRange, State.pairsLeft, hj, hi, Nat.mul_sub]
  generalize k / s.n.toNat = q at *
  generalize k % s.n.toNat = m at *
  omega

/-- Settles O42: the pairs left count down by one from pair to pair, and the position follows from the count. -/
theorem roundsVisitPairsInOrder : Obligations.RoundsVisitPairsInOrder := by
  intro s k hn hn4 hk hp
  obtain ⟨hin, hleft⟩ := State.inRange_of_pair hn hn4 hk hp
  refine ⟨hin.roundCounter_toNat.trans hleft, fun hnext => ?next, fun hlast => ?last⟩
  case next =>
    have hm : 1 < s.i.toNat ∨ 0 < s.j.toNat := by
      by_contra hm
      have := hin.pairsLeft_eq_one_iff.mpr hm
      omega
    obtain ⟨hin', hleft'⟩ := hin.advance hm
    have hk' : 6 * s.n.toNat - s.advance.pairsLeft = k + 1 := by omega
    have hpair := hin'.pair
    rw [State.advance_n, hk'] at hpair
    exact ⟨by rw [State.advance_phase, if_pos hm], hpair⟩
  case last =>
    have hm := hin.pairsLeft_eq_one_iff.mp (by omega)
    obtain ⟨-, -, -, hi, -⟩ := hin
    rw [s.advance_last (fun h => hm (.inl h)) (fun h => hm (.inr h))]
    refine ⟨rfl, ?_, ?_⟩ <;> simp only <;> omega

end Sys2Proof.Machine
end

section
/-! SUPPORT. What the sequencer's steps write: VALIDATE's checks and load, ISSUE, RESPOND, FINAL and `terminate` (41_unwrap_sequencer.md R142 to
R158, R165, R166). -/

namespace Sys2Proof.Machine

/-! ### VALIDATE -/

theorem keybitsUnaligned_iff (kb : Word) : keybitsUnaligned kb = true ↔ kb.toNat % 64 ≠ 0 := by
  simp [keybitsUnaligned, ← BitVec.toNat_inj, BitVec.extractLsb'_toNat]

theorem lengthMismatch_iff (kb wl : Word) : lengthMismatch kb wl = true ↔ wl.toNat ≠ 8 * (kb.toNat / 64 + 1) := by
  simp [lengthMismatch, expectedLength, semiblockCount_toNat]

/-- The operands VALIDATE accepts meet none of the conditions of R143 to R145. -/
theorem inputsValid_iff (kb wl : Word) :
    inputsValid kb wl = true ↔ kb.toNat % 64 = 0 ∧ (1 ≤ kb.toNat / 64 ∧ kb.toNat / 64 ≤ 4) ∧ wl.toNat = 8 * (kb.toNat / 64 + 1) := by
  rw [inputsValid, Bool.not_eq_true', Bool.eq_false_iff, ne_eq, Bool.or_eq_true, Bool.or_eq_true, keybitsUnaligned_iff,
    countOutOfRange_iff, lengthMismatch_iff, semiblockCount_toNat]
  omega

/-- Settles O34: the checks by number, and the four counts they leave. -/
theorem validateAcceptsFourSizes : Obligations.ValidateAcceptsFourSizes := by
  intro kb wl
  refine ⟨keybitsUnaligned_iff kb, ?_, lengthMismatch_iff kb wl, ?_⟩
  · rw [countOutOfRange_iff, semiblockCount_toNat]
  · rw [inputsValid_iff]
    bv_omega

/-- N latches the whole count of valid operands (R146). -/
theorem latchedCount_toNat {kb wl : Word} (h : inputsValid kb wl = true) :
    ((semiblockCount kb).setWidth 3).toNat = kb.toNat / 64 := by
  obtain ⟨-, ⟨-, h4⟩, -⟩ := (inputsValid_iff kb wl).mp h
  rw [BitVec.toNat_setWidth, semiblockCount_toNat]
  omega

/-- Byte m of semiblock k of the input is WIN[8k+m] (20_memory.md R65). -/
theorem winSemiblock_byte (win : Vector Byte 40) (k m : Nat) (hk : k ≤ 4) (hm : m < 8) :
    win[8 * k + m]? = some (byteOf m (winSemiblock win k)) := by
  have hb : byteOf m (winSemiblock win k) = winByte win (8 * k + m) :=
    byteOf_be64 (fun m => winByte win (8 * k + m.val)) ⟨m, hm⟩
  have hlt : 8 * k + m < 40 := by omega
  simp [hb, winByte, hlt]

/-- VALIDATE's load of R[k+1] (41_unwrap_sequencer.md R146). -/
theorem loadSemiblocks_loaded (win : Vector Byte 40) (n : Nat) (r : Vector Semiblock 4) (k : Nat) (hk : k < n) (h4 : k < 4) :
    (loadSemiblocks win n r)[k]? = some (winSemiblock win (k + 1)) := by
  have : k + 1 ≤ n := hk
  interval_cases k <;> simp [loadSemiblocks, this]

theorem step_validate (s : State) (rest : List Event) (ha : s.agenda = .sequencer :: rest) (hp : s.phase = .validate) :
    step s = .next (seqValidate { s with agenda := rest }) :=
  (step_sequencer s rest ha).trans (seqStep_validate { s with agenda := rest } hp)

/-- Settles O35: byte by byte, each semiblock VALIDATE loads and each it keeps. -/
theorem validateLoadsTheInput : Obligations.ValidateLoadsTheInput := by
  intro s rest ha hp hv
  have hst := step_validate s rest ha hp
  rw [seqValidate_accept { s with agenda := rest } hv] at hst
  obtain ⟨-, hn4⟩ := latchedCount_range s.keybits s.wlen hv
  refine ⟨_, hst, rfl, latchedCount_toNat hv, fun m hm => ?integrity, fun k m x hk hm hx => ?loaded, fun k hk => ?kept⟩
  case integrity => simpa [byteOf] using winSemiblock_byte s.win 0 m (by omega) hm
  case loaded =>
    have hk4 : k < 4 := hk.trans_le hn4
    rw [loadSemiblocks_loaded _ _ _ _ hk hk4] at hx
    cases hx
    exact winSemiblock_byte s.win (k + 1) m hk4 hm
  case kept => exact loadSemiblocks_kept _ _ _ _ hk

/-- DETAIL after a failed VALIDATE holds the three checks in bits 2..0 and nothing else (R142). -/
theorem validateDetail_bits (kb wl : Word) :
    (validateDetail kb wl).getLsbD 0 = keybitsUnaligned kb ∧ (validateDetail kb wl).getLsbD 1 = countOutOfRange kb ∧
    (validateDetail kb wl).getLsbD 2 = lengthMismatch kb wl ∧ (validateDetail kb wl).extractLsb' 3 29 = 0 := by
  unfold validateDetail
  generalize lengthMismatch kb wl = e2
  generalize countOutOfRange kb = e1
  generalize keybitsUnaligned kb = e0
  revert e0 e1 e2
  decide

/-! ### The end of a run -/

theorem State.terminate_ok (s : State) : s.terminate .ok = { s with result := .ok, phase := .idle, eventDone := true } := rfl

/-- Any code but OK wipes A and R (R166). -/
theorem State.terminate_error (s : State) {code : ResultCode} (h : code ≠ .ok) :
    s.terminate code = { s with result := code, a := 0, r := #v[0, 0, 0, 0], phase := .idle, eventDone := true } :=
  if_neg h

/-- Settles O41: `terminate` by its code, and KEYOUT shows nothing without OK. -/
theorem terminateLeavesNoPartialKey : Obligations.TerminateLeavesNoPartialKey := by
  intro s code
  refine ⟨fun h => h ▸ s.terminate_ok, fun h => ⟨s.terminate_error h, fun w => ?_⟩⟩
  exact State.keyoutWord_of_not_ok _ w (by simpa using h)

/-- Settles O36: the checks are recorded bit by bit, and `terminate` ends the run. -/
theorem validateRejects : Obligations.ValidateRejects := by
  intro s rest ha hp hv
  have hst := step_validate s rest ha hp
  rw [seqValidate_reject { s with agenda := rest } hv, State.terminate_error (code := .invalidInputLength) _ nofun] at hst
  obtain ⟨h0, h1, h2, hrest⟩ := validateDetail_bits s.keybits s.wlen
  refine ⟨_, hst, rfl, h0.trans ?_, h1.trans ?_, h2.trans ?_, hrest⟩ <;> rw [Bool.eq_iff_iff, decide_eq_true_iff]
  · exact keybitsUnaligned_iff _
  · rw [countOutOfRange_iff, semiblockCount_toNat]
  · exact lengthMismatch_iff _ _

theorem step_final (s : State) (rest : List Event) (ha : s.agenda = .sequencer :: rest) (hp : s.phase = .final) :
    step s = .next (({ s with agenda := rest } : State).terminate (if s.a = Config.iv then .ok else .integrityCheckFailed)) := by
  rw [step_sequencer s rest ha, seqStep_final { s with agenda := rest } hp, seqFinal_eq]

/-- Settles O40: `terminate` with the code the comparison with IV gives. -/
theorem finalChecksIntegrity : Obligations.FinalChecksIntegrity := by
  intro s rest ha hp
  rw [step_final s rest ha hp]
  refine ⟨fun (hiv : s.a = Config.iv) => ?_, fun (hiv : s.a ≠ Config.iv) => ?_⟩
  · rw [if_pos hiv, State.terminate_ok]
  · rw [if_neg hiv, State.terminate_error (code := .integrityCheckFailed) _ nofun]

/-! ### ISSUE and RESPOND -/

/-- The XOR of the round counter touches the low byte of A only (R151). -/
theorem xorLowByte_bytes (a : Semiblock) (t : BitVec 8) :
    (xorLowByte a t).extractLsb' 0 8 = a.extractLsb' 0 8 ^^^ t ∧ (xorLowByte a t).extractLsb' 8 56 = a.extractLsb' 8 56 := by
  simp (disch := omega) only [xorLowByte, BitVec.extractLsb'_append_eq_of_le, BitVec.extractLsb'_append_eq_of_add_le, Nat.reduceSub,
    BitVec.extractLsb'_eq_self, and_self]

/-- Settles O37: the request is formed from the one R[I] there is. -/
theorem issueFormsTheRequest : Obligations.IssueFormsTheRequest := by
  intro s rest x ha hp hi hx
  have hx' : ({ s with agenda := rest } : State).semiblock s.i.toNat = some x := (State.semiblock_eq _ _ hi).trans hx
  obtain ⟨hlow, hhigh⟩ := xorLowByte_bytes s.a (roundCounter s.n s.j s.i)
  exact ⟨_, (step_issue s rest ha hp).trans (seqIssue_of_semiblock _ x hx'), rfl, BitVec.toNat_ofNat _ _, hlow, hhigh, xorLowByte_eq _ _⟩

theorem State.setSemiblock_eq (s : State) (k : Nat) (v : Semiblock) (hk : 1 ≤ k) :
    s.setSemiblock k v = { s with r := s.r.setIfInBounds (k - 1) v } := by
  cases k with
  | zero => omega
  | succ k => rfl

/-- `advance()` writes I, J and PHASE only (R156). -/
theorem State.advance_eq (s : State) :
    s.advance = { s with
      i := if 1 < s.i.toNat then s.i - 1 else if 0 < s.j.toNat then s.n else s.i
      j := if 1 < s.i.toNat then s.j else if 0 < s.j.toNat then s.j - 1 else s.j
      phase := if 1 < s.i.toNat ∨ 0 < s.j.toNat then .issue else .final } := by
  rw [← s.advance_i, ← s.advance_j, ← s.advance_phase]
  ext1 <;> simp

/-- Settles O38: the commit to A and R[I], then `advance()`. -/
theorem respondCommitsAndAdvances : Obligations.RespondCommitsAndAdvances := by
  intro s rest rsp ha hp hr herr hlen hi hi4
  have hst := step_respond s rest rsp ha hp hr
  rw [seqRespond_of_range rsp { s with agenda := rest } ((EngResponse.good_iff rsp).mpr ⟨herr, hlen⟩) hi hi4,
    State.setSemiblock_eq _ _ _ hi, State.advance_eq] at hst
  refine ⟨_, hst, rfl, ?_, fun k hk => ?_⟩
  · exact Vector.getElem?_setIfInBounds_self_of_lt (by omega)
  · exact Vector.getElem?_setIfInBounds_ne (Ne.symm hk)

end Sys2Proof.Machine
end

section
/-! SUPPORT. What a whole step does to the engine and to PHASE (41_unwrap_sequencer.md R141, R161). -/

namespace Sys2Proof.Machine

/-- A sequencer step writes nothing into the engine: at most it takes the response (R161). -/
theorem SeqEffect.engine_eq_or {s t : State} (h : SeqEffect s t) : t.engine = s.engine ∨ t.engine = ⟨s.engine.pending, none⟩ := by
  cases h with
  | disabled _ => exact .inl rfl
  | validate _ =>
    by_cases hv : inputsValid s.keybits s.wlen = true
    · rw [seqValidate_accept s hv]
      exact .inl rfl
    · rw [seqValidate_reject s (by simpa using hv)]
      exact .inl (State.terminate_engine _ _)
  | issue _ _ hi =>
    obtain ⟨x, -, rfl⟩ := seqIssue_next s t hi
    exact .inl rfl
  | commit rsp _ _ _ hg hr =>
    obtain ⟨-, rfl⟩ := seqRespond_good rsp s t hg hr
    exact .inr (by simp)
  | error rsp _ _ _ hg hr =>
    rw [seqRespond_bad rsp s hg] at hr
    cases hr
    exact .inr (State.terminate_engine _ _)
  | final _ =>
    rw [seqFinal_eq]
    exact .inl (State.terminate_engine _ _)

/-- Settles O33: each of these steps keeps the host's registers. -/
theorem runWritesNoOperand : Obligations.RunWritesNoOperand := by
  intro s t e rest ha hhost hreset hst
  have hkept : HostRegistersKept { s with agenda := rest } t ∧
      (e = .sequencer → t.engine = s.engine ∨ t.engine = ⟨s.engine.pending, none⟩) := by
    cases e with
    | host tr => exact absurd rfl (hhost tr)
    | reset => exact absurd rfl hreset
    | sequencer =>
      rw [step_sequencer s rest ha] at hst
      have he := seqStep_effect _ t hst
      exact ⟨he.hostRegistersKept, fun _ => he.engine_eq_or⟩
    | engineAccept =>
      rw [step_engineAccept s rest ha] at hst
      cases hst
      exact ⟨engineAccept_hostRegistersKept _, nofun⟩
    | engineAnswer rsp =>
      rw [step_engineAnswer s rsp rest ha] at hst
      cases hst
      exact ⟨engineAnswer_hostRegistersKept rsp _, nofun⟩
  obtain ⟨⟨hwin, hkek, halg, hkb, hwl, hinten, hign, hreads, -⟩, hen⟩ := hkept
  exact ⟨hwin, hkek, halg, hkb, hwl, hinten, hign, hreads, hen⟩

@[simp] theorem engineAccept_phase (s : State) : (engineAccept s).phase = s.phase := by
  rcases engineAccept_cases s with e | ⟨q, -, -, e⟩ <;> rw [e]

@[simp] theorem engineAnswer_phase (rsp : EngResponse) (s : State) : (engineAnswer rsp s).phase = s.phase := by
  rcases engineAnswer_cases rsp s with e | ⟨q, -, e⟩ <;> rw [e]

/-- A host instruction changes PHASE only by an accepted START (40_host_commands.md R104). -/
theorem HostEffect.phase_eq_or {i : Instr} {s t : State} (h : HostEffect i s t) :
    t.phase = s.phase ∨ commandCode i = some 1 ∧ s.phase = .idle ∧ t.phase = .validate := by
  cases h with
  | start hc hp => exact .inr ⟨hc, hp, rfl⟩
  | _ => exact .inl rfl

/-- A response that is not good has err = 1 or len != 16 (R154). -/
theorem EngResponse.not_good_iff (rsp : EngResponse) : rsp.good = false ↔ rsp.err = true ∨ rsp.len ≠ 16 := by
  rw [Bool.eq_false_iff, ne_eq, EngResponse.good_iff, not_and_or, Bool.not_eq_false]

/-- The sequencer's rows of the table of R141: each step of it that changes PHASE, with its condition and the code it ends on. -/
theorem SeqEffect.phase_row {s t : State} (h : SeqEffect s t) (hne : t.phase ≠ s.phase) :
    (s.phase = .validate ∧ inputsValid s.keybits s.wlen = false ∧ t.phase = .idle ∧ t.result = .invalidInputLength) ∨
    (s.phase = .validate ∧ inputsValid s.keybits s.wlen = true ∧ t.phase = .issue) ∨
    (s.phase = .issue ∧ t.phase = .wait) ∨
    (∃ rsp, s.phase = .wait ∧ s.engine.response = some rsp ∧ (rsp.err = true ∨ rsp.len ≠ 16) ∧ t.phase = .idle ∧
      t.result = .cipherEngineError) ∨
    (∃ rsp, s.phase = .wait ∧ s.engine.response = some rsp ∧ rsp.err = false ∧ rsp.len = 16 ∧
      (0 < s.j.toNat ∨ 1 < s.i.toNat) ∧ t.phase = .issue) ∨
    (∃ rsp, s.phase = .wait ∧ s.engine.response = some rsp ∧ rsp.err = false ∧ rsp.len = 16 ∧
      s.j.toNat = 0 ∧ s.i.toNat = 1 ∧ t.phase = .final) ∨
    (s.phase = .final ∧ s.a = Config.iv ∧ t.phase = .idle ∧ t.result = .ok) ∨
    (s.phase = .final ∧ s.a ≠ Config.iv ∧ t.phase = .idle ∧ t.result = .integrityCheckFailed) := by
  cases h with
  | disabled _ => exact absurd rfl hne
  | validate hp =>
    by_cases hv : inputsValid s.keybits s.wlen = true
    · rw [seqValidate_accept s hv]
      exact .inr (.inl ⟨hp, hv, rfl⟩)
    · have hv : inputsValid s.keybits s.wlen = false := by simpa using hv
      rw [seqValidate_reject s hv]
      exact .inl ⟨hp, hv, State.terminate_phase _ _, State.terminate_result _ _⟩
  | issue _ hp hi =>
    obtain ⟨x, -, rfl⟩ := seqIssue_next s t hi
    exact .inr (.inr (.inl ⟨hp, rfl⟩))
  | error rsp _ hp hr hg ht =>
    rw [seqRespond_bad rsp s hg] at ht
    cases ht
    exact .inr (.inr (.inr (.inl ⟨rsp, hp, hr, rsp.not_good_iff.mp hg, State.terminate_phase _ _, State.terminate_result _ _⟩)))
  | commit rsp _ hp hr hg ht =>
    obtain ⟨⟨hi1, -⟩, rfl⟩ := seqRespond_good rsp s t hg ht
    obtain ⟨herr, hlen⟩ := rsp.good_iff.mp hg
    rw [State.advance_phase, State.setSemiblock_i, State.setSemiblock_j]
    by_cases hm : 1 < s.i.toNat ∨ 0 < s.j.toNat
    · exact .inr (.inr (.inr (.inr (.inl ⟨rsp, hp, hr, herr, hlen, hm.symm, if_pos hm⟩))))
    · have hlast : s.j.toNat = 0 ∧ s.i.toNat = 1 := by omega
      exact .inr (.inr (.inr (.inr (.inr (.inl ⟨rsp, hp, hr, herr, hlen, hlast.1, hlast.2, if_neg hm⟩)))))
  | final hp =>
    rw [seqFinal_eq, State.terminate_phase, State.terminate_result]
    by_cases hiv : s.a = Config.iv
    · exact .inr (.inr (.inr (.inr (.inr (.inr (.inl ⟨hp, hiv, rfl, if_pos hiv⟩))))))
    · exact .inr (.inr (.inr (.inr (.inr (.inr (.inr ⟨hp, hiv, rfl, if_neg hiv⟩))))))

/-- Settles O46: only reset, an accepted START and the sequencer change PHASE. -/
theorem phaseTransitions : Obligations.PhaseTransitions := by
  intro s t hst hne
  cases step_effect s t hst with
  | idle _ => exact absurd rfl hne
  | host tr i rest _ ha hd hx =>
    obtain e | ⟨hc, hp, hv⟩ := (exec_of_decode tr i _ t hd hx).phase_eq_or
    · exact absurd e hne
    · exact .inr (.inl ⟨tr, i, rest, ha, hd, hc, hp, hv⟩)
  | sequencer rest _ ha he => exact .inr (.inr ⟨rest, ha, he.phase_row hne⟩)
  | accept rest _ => exact absurd (engineAccept_phase _) hne
  | answer rsp rest _ => exact absurd (engineAnswer_phase rsp _) hne
  | reset rest ha => exact .inl ⟨rest, ha, rfl⟩

end Sys2Proof.Machine
end

section
/-! SUPPORT. The run in progress is the source's algorithm: what each agent's step leaves of `Refines`, then the end of a run as the end of
the algorithm (41_unwrap_sequencer.md R146 to R159, 42_engine_interface.md R188). -/

namespace Sys2Proof.Machine

/-! ### What `Refines` says in each phase -/

theorem refines_of_atRest {s : State} (hp : s.phase = .idle ∨ s.phase = .validate) : Refines s := by
  rcases hp with hp | hp <;> simp only [Refines, hp]

theorem refines_iff_of_issue {s : State} (hp : s.phase = .issue) :
    Refines s ↔ s.a = (s.reference (6 * s.n.toNat - s.pairsLeft)).a ∧ s.r = (s.reference (6 * s.n.toNat - s.pairsLeft)).r := by
  simp only [Refines, hp]

theorem refines_iff_of_wait {s : State} (hp : s.phase = .wait) :
    Refines s ↔
      s.a = (s.reference (6 * s.n.toNat - s.pairsLeft)).a ^^^ BitVec.ofNat 64 s.pairsLeft ∧
      s.r = (s.reference (6 * s.n.toNat - s.pairsLeft)).r ∧
      ∀ rsp, s.engine.response = some rsp →
        rsp = ⟨false, 16, Config.engineDec s.kekHandle s.algId (s.a ++ s.r[s.i.toNat - 1]?.getD 0)⟩ := by
  simp only [Refines, hp]

theorem refines_iff_of_final {s : State} (hp : s.phase = .final) :
    Refines s ↔ s.a = (s.reference (6 * s.n.toNat)).a ∧ s.r = (s.reference (6 * s.n.toNat)).r := by
  simp only [Refines, hp]

/-- `Refines` looks at the handle, the algorithm, WIN, the position, A, R and the presented response only. -/
theorem Refines.of_frame {s t : State} (h : Refines s)
    (ht : t = { s with
      ignored := t.ignored, inten := t.inten, eventDone := t.eventDone, req := t.req
      engine := ⟨t.engine.pending, s.engine.response⟩, reads := t.reads, agenda := t.agenda }) : Refines t := by
  rw [ht]
  exact h

/-! ### The algorithm's rounds -/

/-- The algorithm runs on the handle, the algorithm, N and WIN alone. -/
theorem State.reference_congr {s t : State} (hk : t.kekHandle = s.kekHandle) (ha : t.algId = s.algId) (hn : t.n = s.n)
    (hw : t.win = s.win) (k : Nat) : t.reference k = s.reference k := by
  simp only [State.reference, hk, ha, hn, hw]

/-- VALIDATE's load over zeroed semiblocks is the algorithm's split (R146). -/
theorem loadSemiblocks_zero (win : Vector Byte 40) (n : Nat) :
    loadSemiblocks win n (Vector.replicate 4 0) = (unwrapSplit win n).r := by
  apply Vector.ext
  intro k hk
  interval_cases k <;> simp [loadSemiblocks, unwrapSplit, Nat.succ_le_iff]

/-- After the rounds before (J, I) comes the round at (J, I) (R147). -/
theorem State.inRange.reference_succ {s : State} (h : s.inRange) :
    s.reference (6 * s.n.toNat - s.pairsLeft + 1) =
      unwrapRound (Config.engineDec s.kekHandle s.algId) s.n.toNat s.j.toNat s.i.toNat
        (s.reference (6 * s.n.toNat - s.pairsLeft)) := by
  obtain ⟨hj, hi⟩ := Prod.mk.inj h.pair
  rw [hj, hi]
  rfl

theorem joinBlock_halves (b : Block) : joinBlock (blockHigh b) (blockLow b) = b :=
  BitVec.extractLsb'_append_extractLsb' (w := 64) (len := 64)

/-! ### The sequencer's steps -/

/-- VALIDATE splits the input as step 1 of the algorithm does, with all 6N rounds to come (R146). -/
theorem Refines.after_validate {s : State} (h : Inv s) (hp : s.phase = .validate) : Refines (seqValidate s) := by
  by_cases hv : inputsValid s.keybits s.wlen = true
  · rw [seqValidate_accept s hv, refines_iff_of_issue rfl]
    obtain ⟨-, -, hr⟩ := h.untouched (.inl hp)
    have hstart (n : BitVec 3) : 6 * n.toNat - (n.toNat * (5 : BitVec 3).toNat + n.toNat) = 0 := by
      have h5 : (5 : BitVec 3).toNat = 5 := rfl
      rw [h5]
      omega
    simp only [State.pairsLeft, hstart, hr, loadSemiblocks_zero]
    exact ⟨rfl, rfl⟩
  · rw [seqValidate_reject s (by simpa using hv)]
    exact refines_of_atRest (.inl (State.terminate_phase _ _))

/-- ISSUE XORs the 64-bit t of the present pair into A (R148, R151). -/
theorem Refines.after_issue {s t : State} (h : Inv s) (hR : Refines s) (hp : s.phase = .issue) (ht : seqIssue s = .next t) :
    Refines t := by
  obtain ⟨hin, -⟩ := h.issuePosition hp
  obtain ⟨-, hen⟩ := h.noRequest (by simp [hp])
  obtain ⟨ha, hr⟩ := (refines_iff_of_issue hp).mp hR
  obtain ⟨x, -, rfl⟩ := seqIssue_next s t ht
  have hxor : xorLowByte s.a (roundCounter s.n s.j s.i) = s.a ^^^ BitVec.ofNat 64 s.pairsLeft := by
    rw [xorLowByte_eq, ← BitVec.ofNat_toNat, hin.roundCounter_toNat]
  refine (refines_iff_of_wait rfl).mpr ⟨?_, hr, by simp [hen]⟩
  exact hxor.trans (congrArg (· ^^^ _) ha)

/-- A presented response holds A and R[I] after the round at the present pair (R155). -/
theorem Refines.response_halves {s : State} {rsp : EngResponse} (hR : Refines s) (hp : s.phase = .wait) (hin : s.inRange)
    (hrsp : s.engine.response = some rsp) :
    blockHigh rsp.data = (s.reference (6 * s.n.toNat - s.pairsLeft + 1)).a ∧
    s.r.setIfInBounds (s.i.toNat - 1) (blockLow rsp.data) = (s.reference (6 * s.n.toNat - s.pairsLeft + 1)).r := by
  obtain ⟨ha, hr, hdec⟩ := (refines_iff_of_wait hp).mp hR
  rw [hin.reference_succ, hdec rsp hrsp, ha, hr]
  exact ⟨rfl, rfl⟩

/-- `advance()` counts the round that was committed (R156). -/
theorem refines_advance {s : State} (hin : s.inRange)
    (ha : s.a = (s.reference (6 * s.n.toNat - s.pairsLeft + 1)).a)
    (hr : s.r = (s.reference (6 * s.n.toNat - s.pairsLeft + 1)).r) : Refines s.advance := by
  by_cases hm : 1 < s.i.toNat ∨ 0 < s.j.toNat
  · obtain ⟨-, hnext⟩ := hin.advance hm
    obtain ⟨-, hle⟩ := hin.pairsLeft_le
    have hk : 6 * s.n.toNat - s.advance.pairsLeft = 6 * s.n.toNat - s.pairsLeft + 1 := by omega
    rw [refines_iff_of_issue (by rw [State.advance_phase, if_pos hm]), State.advance_n, hk,
      State.reference_congr s.advance_kekHandle s.advance_algId s.advance_n s.advance_win, State.advance_a, State.advance_r]
    exact ⟨ha, hr⟩
  · have hk : 6 * s.n.toNat - s.pairsLeft + 1 = 6 * s.n.toNat := by
      have := hin.pairsLeft_eq_one_iff.mpr hm
      have := hin.pairsLeft_le
      omega
    rw [hk] at ha hr
    rw [s.advance_last (fun h => hm (.inl h)) (fun h => hm (.inr h)), refines_iff_of_final rfl]
    exact ⟨ha, hr⟩

/-- RESPOND commits the round's A and R[I] (R155). -/
theorem Refines.after_commit {s t : State} {rsp : EngResponse} (h : Inv s) (hR : Refines s) (hp : s.phase = .wait)
    (hrsp : s.engine.response = some rsp) (hg : rsp.good = true) (ht : seqRespond rsp s = .next t) : Refines t := by
  obtain ⟨hin, -⟩ := h.waitPosition hp
  obtain ⟨ha, hr⟩ := hR.response_halves hp hin hrsp
  obtain ⟨⟨hi1, -⟩, rfl⟩ := seqRespond_good rsp s t hg ht
  rw [State.setSemiblock_eq _ _ _ hi1]
  exact refines_advance hin ha hr

theorem Refines.after_sequencer {s t : State} (h : Inv s) (hR : Refines s) (he : SeqEffect s t) : Refines t := by
  cases he with
  | disabled _ => exact hR
  | validate hp => exact .after_validate h hp
  | issue _ hp ht => exact hR.after_issue h hp ht
  | commit rsp _ hp hr hg ht => exact hR.after_commit h hp hr hg ht
  | error rsp _ _ _ hg ht =>
    rw [seqRespond_bad rsp s hg] at ht
    cases ht
    exact refines_of_atRest (.inl (State.terminate_phase _ _))
  | final _ =>
    rw [seqFinal_eq]
    exact refines_of_atRest (.inl (State.terminate_phase _ _))

/-! ### The other agents' steps -/

theorem Refines.after_host {i : Instr} {s t : State} (hR : Refines s) (hx : exec i s = .next t) (he : HostEffect i s t) :
    Refines t := by
  by_cases hp : s.phase = .idle
  · obtain e | ⟨-, -, e⟩ := he.phase_eq_or
    · exact refines_of_atRest (.inl (e.trans hp))
    · exact refines_of_atRest (.inr e)
  · obtain ⟨t', hx', ht'⟩ := hostCannotDisturbARun i s hp
    obtain rfl : t' = t := by simpa [hx'] using hx
    exact hR.of_frame (by rw [ht'])

theorem Refines.after_accept {s : State} (hR : Refines s) : Refines (engineAccept s) := by
  obtain e | ⟨q, -, hen, e⟩ := engineAccept_cases s <;> rw [e]
  · exact hR
  · exact hR.of_frame (by simp [hen])

/-- The request the engine holds is for the present block (42_engine_interface.md R187). -/
theorem Inv.pending_data {s : State} (h : Inv s) {q : EngRequest} (hq : s.engine.pending = some q) :
    s.phase = .wait ∧ q = ⟨s.a ++ s.r[s.i.toNat - 1]?.getD 0, s.kekHandle, s.algId⟩ := by
  have hp : s.phase = .wait := by
    by_contra hp
    simp [(h.noRequest hp).2] at hq
  obtain ⟨⟨-, -, -, hi, -⟩, -⟩ := h.waitPosition hp
  obtain ⟨hx, ha, hk, hg⟩ := h.requestHeld q (.inr hq)
  rw [State.semiblock_eq _ _ hi] at hx
  rw [hx, ha, ← hk, ← hg]
  exact ⟨hp, congrArg (EngRequest.mk · q.key q.alg) (joinBlock_halves q.data).symm⟩

/-- A correct engine answers with the decryption of the present block (42_engine_interface.md R188). -/
theorem Refines.after_answer {s : State} {rsp : EngResponse} (h : Inv s) (hR : Refines s)
    (hok : ∀ q, s.engine.pending = some q → q.key = s.kekHandle → q.alg = s.algId → rsp = correctResponse q) :
    Refines (engineAnswer rsp s) := by
  obtain e | ⟨q, hen, e⟩ := engineAnswer_cases rsp s <;> rw [e]
  · exact hR
  · have hq : s.engine.pending = some q := by rw [hen]
    obtain ⟨hp, hdata⟩ := h.pending_data hq
    obtain ⟨ha, hr, -⟩ := (refines_iff_of_wait hp).mp hR
    refine (refines_iff_of_wait (s := { s with engine := ⟨none, some rsp⟩ }) hp).mpr ⟨ha, hr, fun rsp' hrsp' => ?_⟩
    obtain rfl : rsp = rsp' := Option.some.inj hrsp'
    rw [hok q hq (by rw [hdata]) (by rw [hdata]), hdata]
    rfl

/-- Settles O53, one agent's step at a time. -/
theorem stepRefinesUnwrap : Obligations.StepRefinesUnwrap := by
  intro s t h hR hok hst
  have taken (rest : List Event) : Inv { s with agenda := rest } := h.of_hostFields rfl
  have takenR (rest : List Event) : Refines { s with agenda := rest } := hR.of_frame rfl
  cases step_effect s t hst with
  | idle _ => exact hR
  | host tr i rest _ _ hd hx => exact (takenR rest).after_host hx (exec_of_decode tr i _ t hd hx)
  | sequencer rest _ _ he => exact (takenR rest).after_sequencer (taken rest) he
  | accept rest _ => exact (takenR rest).after_accept
  | answer rsp rest ha => exact (takenR rest).after_answer (taken rest) fun q => hok rsp rest q ha
  | reset rest _ => exact refines_of_atRest (.inl rfl)

/-! ### The end of the run -/

/-- Settles O54: in FINAL A and R are the algorithm's, and only `terminate(OK)` keeps them for KEYOUT. -/
theorem finishedRunIsTheUnwrap : Obligations.FinishedRunIsTheUnwrap := by
  intro s rest _ hR hp hag
  obtain ⟨ha, hr⟩ := (refines_iff_of_final hp).mp hR
  refine ⟨_, step_final s rest hag hp, State.terminate_phase _ _, ?_⟩
  rw [← ha, ← hr]
  constructor
  · intro hiv
    rw [if_pos hiv]
    refine ⟨State.terminate_result _ _, fun w m hm hb => ?_⟩
    rw [keyoutWord_lane _ w m hm, State.keyoutByte, if_pos (by simpa using hb)]
    rfl
  · intro hiv
    rw [if_neg hiv]
    exact ⟨State.terminate_result _ _, fun w => State.keyoutWord_of_not_ok _ w (by simp)⟩

end Sys2Proof.Machine
end

section
/-! SUPPORT. Two runs with equal inputs go alike: each operation of a run, and each step of the sequencer and of the engine, keeps `RunEqual`
(41_unwrap_sequencer.md R162). -/

namespace Sys2Proof.Machine

/-! ### The operations of a run -/

/-- `RunEqual` does not look at the agenda. -/
theorem RunEqual.take {s t : State} (h : RunEqual s t) (rest rest' : List Event) :
    RunEqual { s with agenda := rest } { t with agenda := rest' } := { h with }

theorem RunEqual.withDetail {s t : State} (h : RunEqual s t) {d d' : Word} (hd : d = d') :
    RunEqual { s with detail := d } { t with detail := d' } := by
  obtain ⟨hres, -⟩ := h.status
  exact { h with status := ⟨hres, hd⟩ }

theorem RunEqual.takeResponse {s t : State} (h : RunEqual s t) :
    RunEqual { s with engine := { s.engine with response := none } } { t with engine := { t.engine with response := none } } :=
  { h with response := rfl }

theorem RunEqual.terminate {s t : State} (h : RunEqual s t) (code : ResultCode) : RunEqual (s.terminate code) (t.terminate code) := by
  obtain ⟨ha, hr⟩ := h.work
  obtain ⟨-, hd⟩ := h.status
  constructor
  case phase => simp
  case work => simp [ha, hr]
  case position => simpa using h.position
  case status => simp [hd]
  case lengths => simpa using h.lengths
  case input => simpa using h.input
  case request => simpa using h.request
  case pending => simpa using h.pending
  case response => simpa using h.response

/-- The commit of a good response (R155). -/
theorem RunEqual.commit {s t : State} (h : RunEqual s t) {k k' : Nat} (a v : Semiblock) (hk : 1 ≤ k) (hkk' : k = k') :
    RunEqual (({ s with a := a } : State).setSemiblock k v) (({ t with a := a } : State).setSemiblock k' v) := by
  subst hkk'
  obtain ⟨-, hr⟩ := h.work
  rw [State.setSemiblock_eq _ _ _ hk, State.setSemiblock_eq _ _ _ hk]
  exact { h with work := ⟨rfl, congrArg (·.setIfInBounds (k - 1) v) hr⟩ }

/-- `advance()` looks at the position alone (R156). -/
theorem RunEqual.advance {s t : State} (h : RunEqual s t) : RunEqual s.advance t.advance := by
  obtain ⟨hn, hj, hi, ht, hc⟩ := h.position
  rw [State.advance_eq, State.advance_eq, hn, hj, hi]
  exact { h with phase := rfl, position := ⟨rfl, rfl, rfl, ht, hc⟩ }

/-! ### The sequencer's steps -/

theorem winSemiblock_congr {win win' : Vector Byte 40} {k : Nat}
    (h : ∀ m, m < 8 → winByte win (8 * k + m) = winByte win' (8 * k + m)) : winSemiblock win k = winSemiblock win' k := by
  have h0 := h 0 (by omega)
  simp only [Nat.add_zero] at h0
  simp only [winSemiblock, h0, h 1 (by omega), h 2 (by omega), h 3 (by omega), h 4 (by omega), h 5 (by omega), h 6 (by omega),
    h 7 (by omega)]

/-- The load of R[1..n] looks at the semiblocks 1 to n of the input alone (R146). -/
theorem loadSemiblocks_congr {win win' : Vector Byte 40} {n : Nat} (r : Vector Semiblock 4)
    (h : ∀ k, k < n → winSemiblock win (k + 1) = winSemiblock win' (k + 1)) : loadSemiblocks win n r = loadSemiblocks win' n r := by
  apply Vector.ext
  intro k h4
  rw [← Option.some_inj, ← Vector.getElem?_eq_getElem h4, ← Vector.getElem?_eq_getElem h4]
  by_cases hk : k < n
  · rw [loadSemiblocks_loaded win n r k hk h4, loadSemiblocks_loaded win' n r k hk h4, h k hk]
  · rw [loadSemiblocks_kept win n r k (by omega), loadSemiblocks_kept win' n r k (by omega)]

theorem RunEqual.validate {s t : State} (h : RunEqual s t) : RunEqual (seqValidate s) (seqValidate t) := by
  obtain ⟨hkb, hwl⟩ := h.lengths
  by_cases hv : inputsValid s.keybits s.wlen = true
  · rw [seqValidate_accept s hv, seqValidate_accept t (by rwa [← hkb, ← hwl])]
    obtain ⟨-, hr⟩ := h.work
    obtain ⟨-, -, -, ht, hc⟩ := h.position
    have hn : (semiblockCount s.keybits).setWidth 3 = ((semiblockCount t.keybits).setWidth 3 : BitVec 3) := by rw [hkb]
    have hcount : ((semiblockCount s.keybits).setWidth 3 : BitVec 3).toNat = (semiblockCount s.keybits).toNat := by
      rw [latchedCount_toNat hv, semiblockCount_toNat]
    have hload (k : Nat) (hk : k ≤ (semiblockCount s.keybits).toNat) : winSemiblock s.win k = winSemiblock t.win k :=
      winSemiblock_congr fun m hm => h.input _ (by omega)
    have hr' : loadSemiblocks s.win ((semiblockCount s.keybits).setWidth 3 : BitVec 3).toNat s.r =
        loadSemiblocks t.win ((semiblockCount t.keybits).setWidth 3 : BitVec 3).toNat t.r := by
      rw [← hr, ← hn]
      exact loadSemiblocks_congr s.r fun k hk => hload (k + 1) (by omega)
    exact { h with phase := rfl, work := ⟨hload 0 (by omega), hr'⟩, position := ⟨hn, rfl, hn, ht, hc⟩ }
  · have hv : inputsValid s.keybits s.wlen = false := by simpa using hv
    rw [seqValidate_reject s hv, seqValidate_reject t (by rwa [← hkb, ← hwl])]
    exact (h.withDetail (by rw [hkb, hwl])).terminate _

theorem RunEqual.issue {s t s' t' : State} (h : RunEqual s t) (hs : seqIssue s = .next s') (ht : seqIssue t = .next t') :
    RunEqual s' t' := by
  obtain ⟨ha, hr⟩ := h.work
  obtain ⟨hn, hj, hi, -, hc⟩ := h.position
  obtain ⟨x, hx, rfl⟩ := seqIssue_next s s' hs
  obtain ⟨y, hy, rfl⟩ := seqIssue_next t t' ht
  obtain rfl : x = y := by
    have hsemi : s.semiblock s.i.toNat = t.semiblock t.i.toNat := by simp only [State.semiblock, hr, hi]
    exact Option.some.inj (hx.symm.trans (hsemi.trans hy))
  have hcounter : roundCounter s.n s.j s.i = roundCounter t.n t.j t.i := by rw [hn, hj, hi]
  have ha' : xorLowByte s.a (roundCounter s.n s.j s.i) = xorLowByte t.a (roundCounter t.n t.j t.i) := by rw [ha, hcounter]
  exact { h with phase := rfl, work := ⟨ha', hr⟩, position := ⟨hn, hj, hi, hcounter, congrArg (· + 1) hc⟩,
                 request := congrArg (fun a => some (joinBlock a x)) ha' }

theorem RunEqual.respond {s t s' t' : State} (rsp : EngResponse) (h : RunEqual s t) (hs : seqRespond rsp s = .next s')
    (ht : seqRespond rsp t = .next t') : RunEqual s' t' := by
  by_cases hg : rsp.good = true
  · obtain ⟨⟨hi1, -⟩, rfl⟩ := seqRespond_good rsp s s' hg hs
    obtain ⟨-, rfl⟩ := seqRespond_good rsp t t' hg ht
    obtain ⟨-, -, hi, -⟩ := h.position
    exact (h.takeResponse.commit _ _ hi1 (congrArg BitVec.toNat hi)).advance
  · have hg : rsp.good = false := by simpa using hg
    rw [seqRespond_bad rsp _ hg] at hs ht
    cases hs
    cases ht
    exact (h.takeResponse.withDetail rfl).terminate _

theorem RunEqual.final {s t : State} (h : RunEqual s t) : RunEqual (seqFinal s) (seqFinal t) := by
  obtain ⟨ha, -⟩ := h.work
  rw [seqFinal_eq, seqFinal_eq, ha]
  exact h.terminate _

theorem RunEqual.sequencer {s t s' t' : State} (h : RunEqual s t) (hs : seqStep s = .next s') (ht : seqStep t = .next t') :
    RunEqual s' t' := by
  have hpt : t.phase = s.phase := h.phase.symm
  have hrt : t.engine.response = s.engine.response := h.response.symm
  cases hp : s.phase with
  | idle =>
    rw [seqStep_disabled s (by simp [State.seqEnabled, hp])] at hs
    rw [seqStep_disabled t (by simp [State.seqEnabled, hpt, hp])] at ht
    cases hs
    cases ht
    exact h
  | validate =>
    rw [seqStep_validate s hp] at hs
    rw [seqStep_validate t (hpt.trans hp)] at ht
    cases hs
    cases ht
    exact h.validate
  | issue =>
    rw [seqStep_issue s hp] at hs
    rw [seqStep_issue t (hpt.trans hp)] at ht
    exact h.issue hs ht
  | wait =>
    cases hr : s.engine.response with
    | none =>
      rw [seqStep_disabled s (by simp [State.seqEnabled, State.engRspValid, hp, hr])] at hs
      rw [seqStep_disabled t (by simp [State.seqEnabled, State.engRspValid, hpt, hp, hrt, hr])] at ht
      cases hs
      cases ht
      exact h
    | some rsp =>
      rw [seqStep_respond s rsp hp hr] at hs
      rw [seqStep_respond t rsp (hpt.trans hp) (hrt.trans hr)] at ht
      exact h.respond rsp hs ht
  | final =>
    rw [seqStep_final s hp] at hs
    rw [seqStep_final t (hpt.trans hp)] at ht
    cases hs
    cases ht
    exact h.final

/-! ### The engine's steps -/

theorem RunEqual.pending_isSome {s t : State} (h : RunEqual s t) : s.engine.pending.isSome = t.engine.pending.isSome := by
  simpa using congrArg Option.isSome h.pending

theorem RunEqual.accept {s t : State} (h : RunEqual s t) : RunEqual (engineAccept s) (engineAccept t) := by
  have hq : s.req.isSome = t.req.isSome := by simpa using congrArg Option.isSome h.request
  have he : s.acceptEnabled = t.acceptEnabled := by
    simp only [State.acceptEnabled, State.engReqValid, ← Option.not_isSome, hq, h.pending_isSome, h.response]
  simp only [engineAccept, he]
  split_ifs
  · exact { h with request := rfl, pending := h.request }
  · exact h

theorem RunEqual.answer {s t : State} (rsp : EngResponse) (h : RunEqual s t) :
    RunEqual (engineAnswer rsp s) (engineAnswer rsp t) := by
  have he : s.answerEnabled = t.answerEnabled := by simp only [State.answerEnabled, h.pending_isSome, h.response]
  simp only [engineAnswer, he]
  split_ifs
  · exact { h with pending := rfl, response := rfl }
  · exact h

/-- Settles O58, one agent's step at a time. -/
theorem runDependsOnlyOnItsInputs : Obligations.RunDependsOnlyOnItsInputs := by
  intro s t s' t' e rest rest' h ha ha' hhost hs ht
  have taken : RunEqual { s with agenda := rest } { t with agenda := rest' } := h.take rest rest'
  cases e with
  | host tr => exact absurd rfl (hhost tr)
  | sequencer =>
    rw [step_sequencer s rest ha] at hs
    rw [step_sequencer t rest' ha'] at ht
    exact taken.sequencer hs ht
  | engineAccept =>
    rw [step_engineAccept s rest ha] at hs
    rw [step_engineAccept t rest' ha'] at ht
    cases hs
    cases ht
    exact taken.accept
  | engineAnswer rsp =>
    rw [step_engineAnswer s rsp rest ha] at hs
    rw [step_engineAnswer t rsp rest' ha'] at ht
    cases hs
    cases ht
    exact taken.answer rsp
  | reset =>
    rw [step_reset s rest ha] at hs
    rw [step_reset t rest' ha'] at ht
    cases hs
    cases ht
    exact ⟨rfl, ⟨rfl, rfl⟩, ⟨rfl, rfl, rfl, rfl, rfl⟩, ⟨rfl, rfl⟩, ⟨rfl, rfl⟩, fun _ _ => rfl, rfl, rfl, rfl⟩

end Sys2Proof.Machine
end

section
/-! SUPPORT. The engine interface: ACCEPT, ANSWER and RESPOND on an error, and what happens to a request while it is outstanding
(42_engine_interface.md R182 to R187, R190, R194). -/

namespace Sys2Proof.Machine

/-! ### The two engine steps and the errored response -/

/-- Settles O43: both steps are enabled, so each has its effect. -/
theorem engineAcceptsAndAnswers : Obligations.EngineAcceptsAndAnswers := by
  intro s rest q rsp
  refine ⟨fun ha hq hen => ?accept, fun ha hen => ⟨_, ?answer, rfl, rfl⟩⟩
  case accept =>
    rw [step_engineAccept s rest ha, engineAccept_enabled { s with agenda := rest } q hq (by simp [hen]) (by simp [hen])]
  case answer =>
    rw [step_engineAnswer s rsp rest ha, engineAnswer_enabled rsp { s with agenda := rest } (by simp [hen]) (by simp [hen])]

/-- DETAIL after a failed RESPOND holds err, the length's mismatch and the length, and nothing else (10_state.md R43). -/
theorem respondDetail_bits (rsp : EngResponse) :
    (respondDetail rsp).extractLsb' 0 8 = 0 ∧ (respondDetail rsp).getLsbD 8 = rsp.err ∧
    (respondDetail rsp).getLsbD 9 = decide (rsp.len ≠ 16) ∧ (respondDetail rsp).extractLsb' 10 6 = 0 ∧
    (respondDetail rsp).extractLsb' 16 5 = rsp.len ∧ (respondDetail rsp).extractLsb' 21 11 = 0 := by
  have hlen : (rsp.len != Config.blockBytes) = decide (rsp.len ≠ 16) := by
    rw [bne, beq_eq_decide, ← decide_not]
    rfl
  rw [respondDetail, hlen]
  generalize decide (rsp.len ≠ 16) = bad
  generalize rsp.err = err
  generalize rsp.len = len
  revert len bad err
  decide

/-- Settles O39: the cause is recorded bit by bit, and `terminate` wipes A and R. -/
theorem respondEndsOnEngineError : Obligations.RespondEndsOnEngineError := by
  intro s rest rsp ha hp hr hbad
  have hst := step_respond s rest rsp ha hp hr
  rw [seqRespond_bad rsp { s with agenda := rest } (rsp.not_good_iff.mpr hbad),
    State.terminate_error (code := .cipherEngineError) _ nofun] at hst
  exact ⟨_, hst, rfl, respondDetail_bits rsp⟩

/-! ### A request outstanding -/

/-- In every state of the invariant at most one request is outstanding, and none outside WAIT (R186). -/
theorem Inv.outstanding_le_one {s : State} (h : Inv s) : s.outstanding ≤ 1 := by
  by_cases hp : s.phase = .wait
  · exact (h.oneInWait hp).le
  · simp [h.noneElsewhere hp]

/-- Settles O50: every reachable state meets the invariant. -/
theorem atMostOneRequestOutstanding : Obligations.AtMostOneRequestOutstanding :=
  fun _ h => ⟨h.inv.outstanding_le_one, h.inv.noneElsewhere⟩

/-- A request is in KUW or in the engine only in WAIT, before the response (R186). -/
theorem Inv.wait_of_request {s : State} {q : EngRequest} (h : Inv s) (hq : s.req = some q ∨ s.engine.pending = some q) :
    s.phase = .wait ∧ s.engine.response = none := by
  have hp : s.phase = .wait := by
    by_contra hp
    obtain ⟨hreq, hen⟩ := h.noRequest hp
    simp [hreq, hen] at hq
  refine ⟨hp, ?_⟩
  by_contra hr
  obtain ⟨hreq, hpe⟩ := s.outstanding_takeResponse (h.oneInWait hp) (Option.isSome_iff_ne_none.mpr hr)
  simp [hreq, hpe] at hq

/-- A request on the ports is the only one: the engine holds nothing (R186). -/
theorem Inv.engine_of_req {s : State} {q : EngRequest} (h : Inv s) (hq : s.req = some q) : s.engine = ⟨none, none⟩ := by
  obtain ⟨hp, hr⟩ := h.wait_of_request (.inl hq)
  have hpe : s.engine.pending = none := by simpa [State.outstanding, hq, hr] using h.oneInWait hp
  rw [← hpe, ← hr]

/-- The sequencer has a step in every phase of a run, but in WAIT only with a response presented (30_encoding.md R96). -/
theorem State.seqEnabled_iff (s : State) :
    s.seqEnabled = true ↔ s.phase ≠ .idle ∧ (s.phase = .wait → s.engine.response ≠ none) := by
  cases hp : s.phase <;> simp [State.seqEnabled, State.engRspReady, State.engRspValid, hp, Option.isSome_iff_ne_none]

@[simp] theorem engineAnswer_req (rsp : EngResponse) (s : State) : (engineAnswer rsp s).req = s.req := by
  rcases engineAnswer_cases rsp s with e | ⟨q, -, e⟩ <;> rw [e]

/-- While BUSY a host instruction writes only IGNORED, INTEN, EVENT_DONE and what the host has read (40_host_commands.md R101). -/
theorem exec_busy {i : Instr} {s t : State} (hx : exec i s = .next t) (hp : s.phase ≠ .idle) :
    t = { s with ignored := t.ignored, inten := t.inten, eventDone := t.eventDone, reads := t.reads } := by
  obtain ⟨t', hx', ht'⟩ := hostCannotDisturbARun i s hp
  rw [hx] at hx'
  cases hx'
  exact ht'

/-- A sequencer event where no step is enabled changes nothing (30_encoding.md R96). -/
theorem SeqEffect.eq_of_disabled {s t : State} (h : SeqEffect s t) (hd : s.seqEnabled = false) : t = s := by
  cases h with
  | disabled _ => rfl
  | validate hp | issue _ hp _ | final hp => simp [Bool.eq_false_iff, State.seqEnabled_iff, hp] at hd
  | commit rsp _ hp hr _ _ | error rsp _ hp hr _ _ => simp [Bool.eq_false_iff, State.seqEnabled_iff, hp, hr] at hd

/-- What a step can do while a request is outstanding: reset, one of the engine's steps, or nothing to the request, to the engine or to
the operands that a request carries. -/
theorem Inv.step_of_request {s t : State} {q : EngRequest} (h : Inv s) (hq : s.req = some q ∨ s.engine.pending = some q)
    (hst : step s = .next t) :
    (∃ rest, s.agenda = .reset :: rest) ∨
    (∃ rest, s.agenda = .engineAccept :: rest ∧ t = engineAccept { s with agenda := rest }) ∨
    (∃ rsp rest, s.agenda = .engineAnswer rsp :: rest ∧ t = engineAnswer rsp { s with agenda := rest }) ∨
    (t.req = s.req ∧ t.engine = s.engine ∧ t.kekHandle = s.kekHandle ∧ t.algId = s.algId) := by
  obtain ⟨hp, hr⟩ := h.wait_of_request hq
  cases step_effect s t hst with
  | idle _ => exact .inr (.inr (.inr ⟨rfl, rfl, rfl, rfl⟩))
  | host tr i rest _ _ _ hx =>
    have hb := exec_busy hx (by simp [hp])
    exact .inr (.inr (.inr ⟨by rw [hb], by rw [hb], by rw [hb], by rw [hb]⟩))
  | sequencer rest _ _ he =>
    obtain rfl := he.eq_of_disabled (by simp [Bool.eq_false_iff, State.seqEnabled_iff, hp, hr])
    exact .inr (.inr (.inr ⟨rfl, rfl, rfl, rfl⟩))
  | accept rest ha => exact .inr (.inl ⟨rest, ha, rfl⟩)
  | answer rsp rest ha => exact .inr (.inr (.inl ⟨rsp, rest, ha, rfl⟩))
  | reset rest ha => exact .inl ⟨rest, ha⟩

/-- KUW holds a request on its ports until ACCEPT or reset (R182). -/
theorem Inv.req_kept {s t : State} {q : EngRequest} (h : Inv s) (hst : step s = .next t) (hq : s.req = some q)
    (haccept : ∀ rest, s.agenda ≠ .engineAccept :: rest) (hreset : ∀ rest, s.agenda ≠ .reset :: rest) : t.req = some q := by
  obtain ⟨rest, ha⟩ | ⟨rest, ha, -⟩ | ⟨rsp, rest, -, rfl⟩ | ⟨hreq, -⟩ := h.step_of_request (.inl hq) hst
  · exact absurd ha (hreset rest)
  · exact absurd ha (haccept rest)
  · simpa using hq
  · exact hreq.trans hq

/-- ACCEPT gives the engine the request on the ports (R183). -/
theorem Inv.accept_transfers {s t : State} {q : EngRequest} {rest : List Event} (h : Inv s) (hst : step s = .next t)
    (hq : s.req = some q) (ha : s.agenda = .engineAccept :: rest) : t.req = none ∧ t.engine.pending = some q := by
  have hen := h.engine_of_req hq
  rw [step_engineAccept s rest ha, engineAccept_enabled { s with agenda := rest } q hq (by simp [hen]) (by simp [hen])] at hst
  cases hst
  exact ⟨rfl, rfl⟩

/-- The engine holds a request until ANSWER or reset (R184). -/
theorem Inv.pending_kept {s t : State} {q : EngRequest} (h : Inv s) (hst : step s = .next t) (hq : s.engine.pending = some q)
    (hanswer : ∀ rsp rest, s.agenda ≠ .engineAnswer rsp :: rest) (hreset : ∀ rest, s.agenda ≠ .reset :: rest) :
    t.engine.pending = some q := by
  obtain ⟨rest, ha⟩ | ⟨rest, -, rfl⟩ | ⟨rsp, rest, ha, -⟩ | ⟨-, hen, -⟩ := h.step_of_request (.inr hq) hst
  · exact absurd ha (hreset rest)
  · rw [engineAccept_disabled { s with agenda := rest } (.inr (.inl (by simp [hq])))]
    exact hq
  · exact absurd ha (hanswer rsp rest)
  · rw [hen]
    exact hq

/-- While a request is outstanding only reset changes the handle and the algorithm (R187). -/
theorem Inv.requestOperands_kept {s t : State} {q : EngRequest} (h : Inv s) (hst : step s = .next t)
    (hq : s.req = some q ∨ s.engine.pending = some q) (hreset : ∀ rest, s.agenda ≠ .reset :: rest) :
    t.kekHandle = s.kekHandle ∧ t.algId = s.algId := by
  obtain ⟨rest, ha⟩ | ⟨rest, -, rfl⟩ | ⟨rsp, rest, -, rfl⟩ | ⟨-, -, hkept⟩ := h.step_of_request hq hst
  · exact absurd ha (hreset rest)
  · have hkept := engineAccept_hostRegistersKept { s with agenda := rest }
    exact ⟨hkept.kekHandle, hkept.algId⟩
  · have hkept := engineAnswer_hostRegistersKept rsp { s with agenda := rest }
    exact ⟨hkept.kekHandle, hkept.algId⟩
  · exact hkept

/-- Settles O44: where the request is, and what can take it from there. -/
theorem requestHeldUntilTaken : Obligations.RequestHeldUntilTaken := by
  intro s t q h hst
  refine ⟨fun hq haccept hreset => ?ports, fun hq ⟨rest, ha⟩ => h.accept_transfers hst hq ha, h.pending_kept hst,
    fun hq hreset => ?operands⟩
  case ports =>
    have htq := h.req_kept hst hq haccept hreset
    obtain ⟨-, hports, -⟩ := outputPorts t
    exact ⟨htq, (hports q htq).symm⟩
  case operands =>
    obtain ⟨-, -, hkey, halg⟩ := h.requestHeld q hq
    exact ⟨hkey, halg, h.requestOperands_kept hst hq hreset⟩

/-- In WAIT the sequencer either has no step or takes the presented response (41_unwrap_sequencer.md R153). -/
theorem SeqEffect.takes_response {s t : State} (h : SeqEffect s t) (hp : s.phase = .wait) :
    t = s ∨ ∃ rsp, s.engine.response = some rsp ∧ t.engine.response = none := by
  cases h with
  | disabled _ => exact .inl rfl
  | validate hp' | issue _ hp' _ | final hp' => simp [hp] at hp'
  | commit rsp _ _ hr hg ht =>
    obtain ⟨-, rfl⟩ := seqRespond_good rsp s t hg ht
    exact .inr ⟨rsp, hr, by simp⟩
  | error rsp _ _ hr hg ht =>
    rw [seqRespond_bad rsp s hg] at ht
    cases ht
    exact .inr ⟨rsp, hr, by simp⟩

/-- Settles O45: of the agents only reset and the sequencer change PHASE in WAIT, and the sequencer only with a response. -/
theorem noTimeoutInWait : Obligations.NoTimeoutInWait := by
  intro s t hst hp hne
  cases step_effect s t hst with
  | idle _ => exact absurd hp hne
  | host tr i rest _ _ _ hx =>
    rw [exec_busy hx (by simp [hp])] at hne
    exact absurd hp hne
  | sequencer rest _ ha he =>
    obtain rfl | ⟨rsp, hr, htr⟩ := he.takes_response hp
    · exact absurd hp hne
    · exact .inr ⟨rsp, rest, ha, hr, htr⟩
  | accept rest _ => exact absurd hp (by simpa using hne)
  | answer rsp rest _ => exact absurd hp (by simpa using hne)
  | reset rest ha => exact .inl ⟨rest, ha⟩

end Sys2Proof.Machine
end

section
/-! SUPPORT. A run ends: `seqStepsLeft` counts down with every enabled step of the sequencer, and under SEQ_FAIR and ENGINE_LIVE such a
step always comes (70_reset_and_hazards.md R252). -/

namespace Sys2Proof.Machine

/-! ### The count of sequencer steps left -/

theorem State.seqStepsLeft_of_idle {s : State} (hp : s.phase = .idle) : s.seqStepsLeft = 0 := by
  simp only [State.seqStepsLeft, hp]

theorem State.seqStepsLeft_of_validate {s : State} (hp : s.phase = .validate) :
    s.seqStepsLeft = if inputsValid s.keybits s.wlen then 2 + 12 * (semiblockCount s.keybits).toNat else 1 := by
  simp only [State.seqStepsLeft, hp]

theorem State.seqStepsLeft_of_issue {s : State} (hp : s.phase = .issue) : s.seqStepsLeft = 2 * s.pairsLeft + 1 := by
  simp only [State.seqStepsLeft, hp]

theorem State.seqStepsLeft_of_wait {s : State} (hp : s.phase = .wait) : s.seqStepsLeft = 2 * s.pairsLeft := by
  simp only [State.seqStepsLeft, hp]

theorem State.seqStepsLeft_of_final {s : State} (hp : s.phase = .final) : s.seqStepsLeft = 1 := by
  simp only [State.seqStepsLeft, hp]

/-- `terminate` ends the run, so no step is left (41_unwrap_sequencer.md R165). -/
theorem State.seqStepsLeft_terminate (s : State) (code : ResultCode) : (s.terminate code).seqStepsLeft = 0 :=
  State.seqStepsLeft_of_idle (s.terminate_phase code)

/-- VALIDATE leaves the two steps of each of the 6N pairs and FINAL, or nothing. -/
theorem seqStepsLeft_validate {s : State} (hp : s.phase = .validate) : (seqValidate s).seqStepsLeft < s.seqStepsLeft := by
  rw [State.seqStepsLeft_of_validate hp]
  by_cases hv : inputsValid s.keybits s.wlen = true
  · have hn := latchedCount_toNat hv
    have h5 : (5 : BitVec 3).toNat = 5 := rfl
    rw [seqValidate_accept s hv, if_pos hv, State.seqStepsLeft_of_issue rfl, semiblockCount_toNat]
    simp only [State.pairsLeft, hn, h5]
    omega
  · rw [seqValidate_reject s (by simpa using hv), State.seqStepsLeft_terminate, if_neg hv]
    exact Nat.one_pos

/-- `advance()` leaves the later pairs, each with its ISSUE and RESPOND, and FINAL. -/
theorem State.inRange.seqStepsLeft_advance {s : State} (h : s.inRange) : s.advance.seqStepsLeft < 2 * s.pairsLeft := by
  by_cases hm : 1 < s.i.toNat ∨ 0 < s.j.toNat
  · obtain ⟨-, hnext⟩ := h.advance hm
    rw [State.seqStepsLeft_of_issue (by rw [State.advance_phase, if_pos hm])]
    omega
  · obtain ⟨hleft, -⟩ := h.pairsLeft_le
    rw [State.seqStepsLeft_of_final (by rw [State.advance_phase, if_neg hm])]
    omega

/-- Every step of the sequencer that is enabled brings the end of the run nearer. -/
theorem SeqEffect.seqStepsLeft_lt {s t : State} (he : SeqEffect s t) (h : Inv s) (hen : s.seqEnabled = true) :
    t.seqStepsLeft < s.seqStepsLeft := by
  cases he with
  | disabled hd => simp [hd] at hen
  | validate hp => exact seqStepsLeft_validate hp
  | issue _ hp ht =>
    obtain ⟨x, -, rfl⟩ := seqIssue_next s t ht
    rw [State.seqStepsLeft_of_issue hp, State.seqStepsLeft_of_wait rfl]
    exact Nat.lt_succ_self _
  | commit rsp _ hp _ hg ht =>
    obtain ⟨hin, -⟩ := h.waitPosition hp
    obtain ⟨-, rfl⟩ := seqRespond_good rsp s t hg ht
    rw [State.seqStepsLeft_of_wait hp]
    have hadv := State.inRange.seqStepsLeft_advance (s := State.setSemiblock
      { s with engine := { s.engine with response := none }, a := blockHigh rsp.data } s.i.toNat (blockLow rsp.data))
      (by simpa [State.inRange] using hin)
    simpa [State.pairsLeft] using hadv
  | error rsp _ hp _ hg ht =>
    obtain ⟨hin, -⟩ := h.waitPosition hp
    obtain ⟨hleft, -⟩ := hin.pairsLeft_le
    rw [seqRespond_bad rsp s hg] at ht
    cases ht
    rw [State.seqStepsLeft_of_wait hp, State.seqStepsLeft_terminate]
    omega
  | final hp =>
    rw [seqFinal_eq, State.seqStepsLeft_terminate, State.seqStepsLeft_of_final hp]
    exact Nat.one_pos

@[simp] theorem engineAccept_seqStepsLeft (s : State) : (engineAccept s).seqStepsLeft = s.seqStepsLeft := by
  rcases engineAccept_cases s with e | ⟨q, -, -, e⟩
  · rw [e]
  · rw [e]; rfl

@[simp] theorem engineAnswer_seqStepsLeft (rsp : EngResponse) (s : State) : (engineAnswer rsp s).seqStepsLeft = s.seqStepsLeft := by
  rcases engineAnswer_cases rsp s with e | ⟨q, -, e⟩
  · rw [e]
  · rw [e]; rfl

/-- A step that takes the sequencer's event while its step is enabled counts down. -/
theorem Inv.step_seqStepsLeft_lt {s t : State} {rest : List Event} (h : Inv s) (hst : step s = .next t)
    (ha : s.agenda = .sequencer :: rest) (hen : s.seqEnabled = true) : t.seqStepsLeft < s.seqStepsLeft := by
  rw [step_sequencer s rest ha] at hst
  have taken : Inv { s with agenda := rest } := h.of_hostFields rfl
  exact (seqStep_effect _ t hst).seqStepsLeft_lt taken hen

/-- No step of any agent but an accepted START puts the end of a run off. -/
theorem Inv.start_or_step_seqStepsLeft_le {s t : State} (h : Inv s) (hst : step s = .next t) :
    (∃ tr i rest, s.agenda = .host tr :: rest ∧ decode tr = .ok i ∧ commandCode i = some 1 ∧ s.phase = .idle) ∨
    t.seqStepsLeft ≤ s.seqStepsLeft := by
  cases step_effect s t hst with
  | idle _ => exact .inr le_rfl
  | host tr i rest _ ha hd hx =>
    by_cases hp : s.phase = .idle
    · obtain hpt | ⟨hc, -⟩ := (exec_of_decode tr i _ t hd hx).phase_eq_or
      · exact .inr (by simp [State.seqStepsLeft_of_idle (hpt.trans hp)])
      · exact .inl ⟨tr, i, rest, ha, hd, hc, hp⟩
    · rw [exec_busy hx hp]
      exact .inr le_rfl
  | sequencer rest _ ha he =>
    cases hen : s.seqEnabled with
    | true => exact .inr (h.step_seqStepsLeft_lt hst ha hen).le
    | false =>
      obtain rfl := he.eq_of_disabled hen
      exact .inr le_rfl
  | accept rest _ => exact .inr (engineAccept_seqStepsLeft _).le
  | answer rsp rest _ => exact .inr (engineAnswer_seqStepsLeft rsp _).le
  | reset rest _ => exact .inr (Nat.zero_le _)

/-! ### A run in progress has an enabled step -/

/-- In WAIT the one outstanding request is on the ports, in the engine, or answered (42_engine_interface.md R186). -/
theorem Inv.enabled_of_busy {s : State} (h : Inv s) (hp : s.phase ≠ .idle) :
    s.seqEnabled = true ∨ s.acceptEnabled = true ∨ s.answerEnabled = true := by
  by_cases hen : s.phase = .wait → s.engine.response ≠ none
  · exact .inl (s.seqEnabled_iff.mpr ⟨hp, hen⟩)
  · obtain ⟨hw, hr⟩ : s.phase = .wait ∧ s.engine.response = none := by simpa using hen
    right
    cases hq : s.req with
    | some q => exact .inl (by simp [State.acceptEnabled, State.engReqValid, hq, h.engine_of_req hq])
    | none =>
      have hpe : s.engine.pending.isSome = true := by simpa [State.outstanding, hq, hr] using h.oneInWait hw
      exact .inr (by simp [State.answerEnabled, hpe, hr])

/-- An enabled step of the sequencer stays enabled until it is taken or the run ends. -/
theorem step_keeps_seqEnabled {s t : State} (hst : step s = .next t) (hen : s.seqEnabled = true)
    (hseq : ∀ rest, s.agenda ≠ .sequencer :: rest) (hp : t.phase ≠ .idle) : t.seqEnabled = true := by
  obtain ⟨hs, hr⟩ := s.seqEnabled_iff.mp hen
  cases step_effect s t hst with
  | idle _ => exact hen
  | host tr i rest _ _ _ hx =>
    rw [exec_busy hx hs]
    exact hen
  | sequencer rest _ ha _ => exact absurd ha (hseq rest)
  | accept rest _ =>
    obtain e | ⟨q, -, hfree, e⟩ := engineAccept_cases { s with agenda := rest } <;> rw [e]
    · exact hen
    · exact (State.seqEnabled_iff _).mpr ⟨hs, fun hw => absurd (congrArg Engine.response hfree) (hr hw)⟩
  | answer rsp rest _ =>
    obtain e | ⟨q, -, e⟩ := engineAnswer_cases rsp { s with agenda := rest } <;> rw [e]
    · exact hen
    · exact (State.seqEnabled_iff _).mpr ⟨hs, fun _ => nofun⟩
  | reset rest _ => exact absurd rfl hp

theorem engineAccept_pending {s : State} (hen : s.acceptEnabled = true) : (engineAccept s).engine.pending = s.req := by
  rw [engineAccept, if_pos hen]

theorem engineAnswer_response {s : State} {rsp : EngResponse} (hen : s.answerEnabled = true) :
    (engineAnswer rsp s).engine.response = some rsp := by
  rw [engineAnswer, if_pos hen]

/-! ### Runs without end -/

section
variable {e : Nat → Event} {σ : Nat → State}

theorem RunOf.inv (hrun : RunOf e σ) (h0 : Inv (σ 0)) (k : Nat) : Inv (σ k) := by
  induction k with
  | zero => exact h0
  | succ k ih =>
    have taken : Inv { σ k with agenda := [e k] } := ih.of_hostFields rfl
    exact stepKeepsInvariant _ _ taken (hrun k)

theorem RunOf.seqStepsLeft_lt (hrun : RunOf e σ) (h0 : Inv (σ 0)) {k : Nat} (he : e k = .sequencer)
    (hen : (σ k).seqEnabled = true) : (σ (k + 1)).seqStepsLeft < (σ k).seqStepsLeft := by
  have taken : Inv { σ k with agenda := [e k] } := (hrun.inv h0 k).of_hostFields rfl
  exact taken.step_seqStepsLeft_lt (hrun k) (congrArg (· :: []) he) hen

theorem RunOf.seqStepsLeft_le (hrun : RunOf e σ) (h0 : Inv (σ 0)) {k : Nat} (hp : (σ k).phase ≠ .idle) :
    (σ (k + 1)).seqStepsLeft ≤ (σ k).seqStepsLeft := by
  have taken : Inv { σ k with agenda := [e k] } := (hrun.inv h0 k).of_hostFields rfl
  obtain ⟨-, -, -, -, -, -, hidle⟩ | hle := taken.start_or_step_seqStepsLeft_le (hrun k)
  · exact absurd hidle hp
  · exact hle

/-- While a run is in progress, the sequencer steps taken and those left come to no more than were left at first. -/
theorem RunOf.seqStepsTaken_add_left_le (hrun : RunOf e σ) (h0 : Inv (σ 0)) {k n : Nat}
    (hbusy : ∀ m, m < n → (σ (k + m)).phase ≠ .idle) :
    seqStepsTaken e σ k n + (σ (k + n)).seqStepsLeft ≤ (σ k).seqStepsLeft := by
  induction n with
  | zero => simp [seqStepsTaken]
  | succ n ih =>
    have ih := ih fun m hm => hbusy m (by omega)
    rw [seqStepsTaken, ← Nat.add_assoc k n 1]
    by_cases ht : e (k + n) = .sequencer ∧ (σ (k + n)).seqEnabled = true
    · have := hrun.seqStepsLeft_lt h0 ht.1 ht.2
      rw [if_pos ht]
      omega
    · have := hrun.seqStepsLeft_le h0 (hbusy n n.lt_succ_self)
      rw [if_neg ht]
      omega

theorem RunOf.eq_of_step (hrun : RunOf e σ) {k : Nat} {t : State} (hst : step { σ k with agenda := [e k] } = .next t) :
    σ (k + 1) = t := by
  rw [hrun k] at hst
  injection hst

theorem RunOf.phase_of_reset (hrun : RunOf e σ) {k : Nat} (he : e k = .reset) : (σ (k + 1)).phase = .idle := by
  rw [hrun.eq_of_step (step_reset _ [] (congrArg (· :: []) he))]
  rfl

theorem RunOf.pending_of_accept (hrun : RunOf e σ) {k : Nat} (he : e k = .engineAccept) (hen : (σ k).acceptEnabled = true) :
    (σ (k + 1)).engine.pending = (σ k).req := by
  rw [hrun.eq_of_step (step_engineAccept _ [] (congrArg (· :: []) he))]
  exact engineAccept_pending hen

theorem RunOf.response_of_answer (hrun : RunOf e σ) {k : Nat} {rsp : EngResponse} (he : e k = .engineAnswer rsp)
    (hen : (σ k).answerEnabled = true) : (σ (k + 1)).engine.response = some rsp := by
  rw [hrun.eq_of_step (step_engineAnswer _ rsp [] (congrArg (· :: []) he))]
  exact engineAnswer_response hen

/-- From its K-th state on, the run is in progress and the sequencer takes no enabled step: what fairness rules out. -/
structure StalledFrom (e : Nat → Event) (σ : Nat → State) (K : Nat) : Prop where
  busy : ∀ m, K ≤ m → (σ m).phase ≠ .idle
  untaken : ∀ m, K ≤ m → (σ m).seqEnabled = true → e m ≠ .sequencer

theorem StalledFrom.no_reset {K m : Nat} (hstall : StalledFrom e σ K) (hrun : RunOf e σ) (hm : K ≤ m) : e m ≠ .reset :=
  fun he => hstall.busy (m + 1) (by omega) (hrun.phase_of_reset he)

/-- By SEQ_FAIR the sequencer of a stalled run is never enabled, for it would stay so. -/
theorem StalledFrom.not_seqEnabled {K m : Nat} (hstall : StalledFrom e σ K) (hrun : RunOf e σ) (hfair : SeqFair e σ) (hm : K ≤ m) :
    (σ m).seqEnabled ≠ true := by
  intro hen
  have stays (l : Nat) (hl : m ≤ l) : (σ l).seqEnabled = true := by
    induction l, hl using Nat.le_induction with
    | base => exact hen
    | succ l hl ih =>
      refine step_keeps_seqEnabled (hrun l) ih (fun rest ha => ?_) (hstall.busy (l + 1) (by omega))
      exact hstall.untaken l (by omega) ih (List.cons.inj ha).1
  obtain ⟨l, hl, he⟩ := hfair m stays
  exact hstall.untaken l (by omega) (stays l hl) he

/-- By ENGINE_LIVE a request in the engine is answered, which enables the sequencer: a stalled run has none there. -/
theorem StalledFrom.pending_eq_none {K m : Nat} (hstall : StalledFrom e σ K) (hrun : RunOf e σ) (hfair : SeqFair e σ)
    (hlive : EngineLive e σ) (hm : K ≤ m) : (σ m).engine.pending = none := by
  by_contra hpe
  obtain ⟨l, hl, ⟨⟨rsp, he⟩, hen⟩ | he⟩ := hlive.answers m (Option.isSome_iff_ne_none.mpr hpe)
  · have hr := hrun.response_of_answer he hen
    have hl' : K ≤ l + 1 := by omega
    exact hstall.not_seqEnabled hrun hfair hl' ((State.seqEnabled_iff _).mpr ⟨hstall.busy _ hl', fun _ => by simp [hr]⟩)
  · exact hstall.no_reset hrun (by omega) he

/-- By ENGINE_LIVE a request on the ports is taken into the engine: a stalled run has none there either. -/
theorem StalledFrom.req_eq_none {K m : Nat} (hstall : StalledFrom e σ K) (hrun : RunOf e σ) (hfair : SeqFair e σ)
    (hlive : EngineLive e σ) (hm : K ≤ m) : (σ m).req = none := by
  by_contra hq
  obtain ⟨l, hl, ⟨he, hen⟩ | he⟩ := hlive.accepts m (Option.isSome_iff_ne_none.mpr hq)
  · have hpe := hrun.pending_of_accept he hen
    rw [hstall.pending_eq_none hrun hfair hlive (by omega)] at hpe
    simp [State.acceptEnabled, State.engReqValid, ← hpe] at hen
  · exact hstall.no_reset hrun (by omega) he

/-- A fair run does not stall: one of the three steps is enabled, and none can be. -/
theorem StalledFrom.false {K : Nat} (hstall : StalledFrom e σ K) (hrun : RunOf e σ) (h0 : Inv (σ 0)) (hfair : SeqFair e σ)
    (hlive : EngineLive e σ) : False := by
  obtain hen | hen | hen := (hrun.inv h0 K).enabled_of_busy (hstall.busy K le_rfl)
  · exact hstall.not_seqEnabled hrun hfair le_rfl hen
  · simp [State.acceptEnabled, State.engReqValid, hstall.req_eq_none hrun hfair hlive le_rfl] at hen
  · simp [State.answerEnabled, hstall.pending_eq_none hrun hfair hlive le_rfl] at hen

/-- Where the fewest steps are left the run stalls: an enabled step of the sequencer would leave fewer. -/
theorem RunOf.stalledFrom_of_fewest (hrun : RunOf e σ) (h0 : Inv (σ 0)) {K : Nat} (hbusy : ∀ n, (σ (K + n)).phase ≠ .idle)
    (hmin : ∀ n, (σ K).seqStepsLeft ≤ (σ (K + n)).seqStepsLeft) : StalledFrom e σ K where
  busy m hm := by
    obtain ⟨n, rfl⟩ := Nat.exists_eq_add_of_le hm
    exact hbusy n
  untaken m hm hen he := by
    obtain ⟨n, rfl⟩ := Nat.exists_eq_add_of_le hm
    have hfewer : (σ (K + (n + 1))).seqStepsLeft < (σ (K + n)).seqStepsLeft := hrun.seqStepsLeft_lt h0 he hen
    have hcount := hrun.seqStepsTaken_add_left_le h0 (n := n) fun m _ => hbusy m
    have := hmin (n + 1)
    omega

/-- A fair run ends: otherwise it would stall where the fewest steps are left. -/
theorem RunOf.reaches_idle (hrun : RunOf e σ) (h0 : Inv (σ 0)) (hfair : SeqFair e σ) (hlive : EngineLive e σ) (k : Nat) :
    ∃ n, (σ (k + n)).phase = .idle := by
  by_contra! hbusy
  obtain ⟨n, hmin⟩ : ∃ n, ∀ m, (σ (k + n)).seqStepsLeft ≤ (σ (k + m)).seqStepsLeft :=
    ⟨_, fun m => Function.argmin_le (fun n => (σ (k + n)).seqStepsLeft) m⟩
  have hstall : StalledFrom e σ (k + n) :=
    hrun.stalledFrom_of_fewest h0 (fun m => by rw [Nat.add_assoc]; exact hbusy _) (fun m => by rw [Nat.add_assoc]; exact hmin _)
  exact hstall.false hrun h0 hfair hlive

end

/-- VALIDATE has at most its own step, FINAL and two for each of the 6N pairs left (R252). -/
theorem State.seqStepsLeft_validate_le {s : State} (hp : s.phase = .validate) :
    s.seqStepsLeft ≤ 2 + 2 * (6 * (semiblockCount s.keybits).toNat) := by
  rw [State.seqStepsLeft_of_validate hp]
  split_ifs <;> omega

/-- Settles O56: an enabled step by the outstanding request, and the first IDLE state of a fair run by the count of steps left. -/
theorem runIsNeverStuck : Obligations.RunIsNeverStuck := by
  refine ⟨fun _ => Inv.enabled_of_busy, fun e σ hrun h0 hfair hlive k _ => ?_⟩
  obtain ⟨n, hn, hfirst⟩ := Nat.findX (hrun.reaches_idle h0 hfair hlive k)
  have hle : seqStepsTaken e σ k n ≤ (σ k).seqStepsLeft :=
    (Nat.le_add_right _ _).trans (hrun.seqStepsTaken_add_left_le h0 hfirst)
  exact ⟨n, hn, hfirst, hle, fun hp => hle.trans (State.seqStepsLeft_validate_le hp)⟩

end Sys2Proof.Machine
end

section
/-! SUPPORT. Reset, and what is left of a run: what `seqStepsLeft` is in each phase of the invariant (70_reset_and_hazards.md R232, R252). -/

namespace Sys2Proof.Machine

/-! ### Reset -/

/-- Settles O10: `takeReset` names no field of the state it abandons but `reads` and `agenda`. -/
theorem resetStepAbandonsTheRun : Obligations.ResetStepAbandonsTheRun := by
  intro s rest ha
  refine ⟨_, step_reset s rest ha, rfl, rfl, rfl, rfl, fun k hk => ?_, rfl, rfl, rfl⟩
  simp [State.takeReset, State.reset, hk]

/-! ### The bound -/

/-- A count in range has at most 24 pairs left (41_unwrap_sequencer.md R147). -/
theorem State.inRange.pairsLeft_le_24 {s : State} (h : s.inRange) : s.pairsLeft ≤ 24 := by
  obtain ⟨-, hle⟩ := h.pairsLeft_le
  obtain ⟨-, hn4, -⟩ := h
  omega

/-- VALIDATE has at most 50 steps left: valid operands have a count of at most 4 (41_unwrap_sequencer.md R143). -/
theorem State.seqStepsLeft_validate_bounds {s : State} (hp : s.phase = .validate) : 0 < s.seqStepsLeft ∧ s.seqStepsLeft ≤ 50 := by
  rw [State.seqStepsLeft_of_validate hp, semiblockCount_toNat]
  split_ifs with hv
  · obtain ⟨-, ⟨-, hn4⟩, -⟩ := (inputsValid_iff s.keybits s.wlen).mp hv
    omega
  · omega

/-- A run in progress has between 1 and 50 steps left: two for each pair left, ISSUE's own one and FINAL's. -/
theorem Inv.seqStepsLeft_bounds_of_busy {s : State} (h : Inv s) (hp : s.phase ≠ .idle) :
    0 < s.seqStepsLeft ∧ s.seqStepsLeft ≤ 50 := by
  cases hph : s.phase with
  | idle => exact absurd hph hp
  | validate => exact State.seqStepsLeft_validate_bounds hph
  | issue =>
    obtain ⟨hin, -⟩ := h.issuePosition hph
    have := hin.pairsLeft_le_24
    rw [State.seqStepsLeft_of_issue hph]
    omega
  | wait =>
    obtain ⟨hin, -⟩ := h.waitPosition hph
    obtain ⟨hleft, -⟩ := hin.pairsLeft_le
    have := hin.pairsLeft_le_24
    rw [State.seqStepsLeft_of_wait hph]
    omega
  | final => simp [State.seqStepsLeft_of_final hph]

/-- Only in IDLE is no step left. -/
theorem Inv.seqStepsLeft_eq_zero_iff {s : State} (h : Inv s) : s.seqStepsLeft = 0 ↔ s.phase = .idle := by
  refine ⟨fun h0 => ?_, State.seqStepsLeft_of_idle⟩
  by_contra hp
  exact (h.seqStepsLeft_bounds_of_busy hp).left.ne' h0

/-- `2 + 2 * 6N` for the largest N bounds the steps left (R252). -/
theorem Inv.seqStepsLeft_le_50 {s : State} (h : Inv s) : s.seqStepsLeft ≤ 50 := by
  by_cases hp : s.phase = .idle
  · simp [State.seqStepsLeft_of_idle hp]
  · exact (h.seqStepsLeft_bounds_of_busy hp).right

/-- Settles O55: the step's effect on the count, and the count in each phase. -/
theorem runEndsWithinBound : Obligations.RunEndsWithinBound := by
  intro s t h hst
  exact ⟨fun rest ha hen => h.step_seqStepsLeft_lt hst ha hen, h.start_or_step_seqStepsLeft_le hst,
    h.seqStepsLeft_eq_zero_iff, h.seqStepsLeft_le_50⟩

end Sys2Proof.Machine
end
